-- ==== Sys2Proof/Word.lean ====
section
/-! DEFINITION. The word types: bytes of the wing link, the 24-bit encoder counter, and tables of records by number. -/

namespace Sys2Proof

/-- A byte of a wing link message (R189). -/
abbrev Byte := BitVec 8

/-- An encoder counter value, 0 to 16,777,215, wrapping (R90, R92). -/
abbrev Counter := BitVec 24

/-- Records by number, as (number, record) pairs. The operations on it (`tableGet`, `tableSet`) are in `Machine/Ops.lean`:
a number that is not listed has the table's default record. -/
abbrev Table (α : Type) := List (Nat × α)

end Sys2Proof
end

