-- ==== Sys2Proof/Config.lean ====
section
/-! DEFINITION. The values the manual leaves open. They are opaque constants: nothing can be proved of what they are. -/

namespace Sys2Proof

/-- FREE VALUE (DESIGN CHOICE, log 8). The byte by which a response names a final state of an order, numbered here 0 for
COMPLETE, 1 for CANCELLED, 2 for FAILED. R43 gives the final states no row in the order record, so R190 numbers none of
them. -/
opaque Config.finalStateByte : Nat → Byte

/-- FREE VALUE (DESIGN CHOICE, log 8). The byte of a two-valued indication whose values no record table lists (the ended,
repeat, applied, clamped and orphan indications, limit levels and panel lines in RDZONE and STAT): R190 numbers named
values only in the order of such a table. -/
opaque Config.indicationByte : Bool → Byte

end Sys2Proof
end

