-- ==== Sys2Proof/Syntax.lean ====
section
/-! DEFINITION. The commands of the part: one constructor of `Instr` for each row of the opcode table. -/

namespace Sys2Proof

/-- The four link ports (00_scope 2.1): the port fixes the role of the sender. -/
inductive Port where
  | C | A | B | S
deriving DecidableEq, Repr

/-- The two cranes: A works from the west station, B from the east station (R2). -/
inductive Crane where
  | A | B
deriving DecidableEq, Repr

/-- The two stations (R2). -/
inductive Station where
  | W | E
deriving DecidableEq, Repr

/-- A crane's four field inputs (R91). -/
inductive EncInput where
  | phase1 | phase2 | index | home
deriving DecidableEq, Repr

/-- The filter windows that can end in one event. The two phases may end theirs at the same instant (R92, both phases
change at once). -/
inductive FilterEnd where
  | phase1 | phase2 | bothPhases | index | home
deriving DecidableEq, Repr

/-- A shutter's two limit inputs (R174). -/
inductive LimitSwitch where
  | closedLimit | openLimit
deriving DecidableEq, Repr

/-- The result operand of TAG (R157). -/
inductive TagResult where
  | tag (bin : Nat)
  | noBin
  | unreadable
deriving DecidableEq, Repr

/-- The three samples that decide one received bit: 7, 8 and 9 of its bit time, or 5, 7 and 9 for the start bit (R192). -/
structure Samples where
  a : Bool
  b : Bool
  c : Bool
deriving DecidableEq, Repr

/-- What the receiver reads of one character, from the fall of the line to the stop bit (R188, R192). -/
structure RxFrame where
  start : Samples
  d0 : Samples
  d1 : Samples
  d2 : Samples
  d3 : Samples
  d4 : Samples
  d5 : Samples
  d6 : Samples
  d7 : Samples
  marker : Samples
  stop : Samples
deriving DecidableEq, Repr

/-- The levels of a port's two rate strap lines, true for high (R188). -/
structure Straps where
  first : Bool
  second : Bool
deriving DecidableEq, Repr

/-- The levels of a shutter's two limit inputs (R174). -/
structure LimitLevels where
  closedLimit : Bool
  openLimit : Bool
deriving DecidableEq, Repr

/-- The raw levels of a crane's four field inputs (R91). -/
structure CraneInputs where
  phase1 : Bool
  phase2 : Bool
  index : Bool
  home : Bool
deriving DecidableEq, Repr

/-- The field-line levels as they stand at a start (R206): straps, limit inputs, encoder inputs, manual release. -/
structure StartLevels where
  strapsC : Straps
  strapsA : Straps
  strapsB : Straps
  strapsS : Straps
  limits0 : LimitLevels
  limits1 : LimitLevels
  limits2 : LimitLevels
  inputsA : CraneInputs
  inputsB : CraneInputs
  manualRelease : Bool
deriving DecidableEq, Repr

/-- What RDZONE reads (R186): the zone its body names, and the level of the manual-release input as the request is taken
(log 17). -/
structure ZoneRead where
  zone : Nat
  manualRelease : Bool
deriving DecidableEq, Repr

/-- The end of a message on the line (R198): the port whose transmitter has sent it, and the field-line levels as they then stand,
for the start that it may cause (R205, R206; log 25). -/
structure MessageEnd where
  port : Port
  levels : StartLevels
deriving DecidableEq, Repr

/-- The commands. A request names the port whose server takes it, and its operands in the order of the request's rule;
an event of the part or of its field lines names the record it reaches. A command at which the part reads a field line carries
the level of the line: RDZONE the manual-release input (R186), TRANSMIT_COMPLETE the lines that a start reads, for the start it
may cause (R205, R206). -/
inductive Instr where
  | stat (p : Port)
  | rdbin (p : Port) (bin : Nat)
  | rdcell (p : Port) (cell : Nat)
  | rdord (p : Port) (slot gen : Nat)
  | rdcrn (p : Port) (crane : Nat)
  | rdseg (p : Port) (segment : Nat)
  | rdzone (p : Port) (read : ZoneRead)
  | fetch (p : Port) (bin station : Nat) (picks : List Nat) (loan : BitVec 32) (authority : Nat)
  | pick (p : Port) (bin compartment : Nat)
  | unpick (p : Port) (bin compartment : Nat)
  | slot (p : Port) (station : Nat)
  | place (p : Port) (bin compartment : Nat)
  | unclaim (p : Port) (bin compartment : Nat)
  | relbay (p : Port) (station bay : Nat)
  | cancel (p : Port) (slot gen : Nat)
  | cancelOnPortS (slot gen : Nat)
  | nextWork (p : Port) (level : Nat)
  | load (p : Port) (slot gen : Nat)
  | done (p : Port) (slot gen : Nat) (cell : Option Nat)
  | unable (p : Port) (slot gen reason : Nat) (cell : Option Nat)
  | tag (p : Port) (slot gen : Nat) (result : TagResult)
  | rsv (p : Port) (lo hi : Nat)
  | rel (p : Port) (lo hi : Nat)
  | clrt (p : Port)
  | keep (p : Port) (code : Nat)
  | assign (p : Port) (bin : Nat) (cell : Option Nat)
  | clrsus (p : Port) (cell : Nat)
  | block (p : Port) (cell : Nat)
  | unblk (p : Port) (cell : Nat)
  | quar (p : Port) (bin : Nat)
  | unquar (p : Port) (bin : Nat)
  | setcmp (p : Port) (bin : Nat) (states : List Nat)
  | move (p : Port) (bin cell authority : Nat)
  | frel (p : Port) (crane lo hi : Nat)
  | stop (p : Port) (crane : Nat)
  | creep (p : Port) (crane : Nat)
  | crend (p : Port) (crane : Nat)
  | whold (p : Port) (zones : List Nat)
  | wres (p : Port)
  | frst (p : Port) (zone : Nat)
  | sopen (p : Port) (shutter : Nat)
  | setParam (p : Port) (parameter value : Nat)
  | rstrt (p : Port)
  | assemblerRefusal (p : Port)
  | unknownKind (p : Port)
  | messageComplete (p : Port)
  | overlengthMessage (p : Port)
  | lineBreak (p : Port)
  | transmitComplete (e : MessageEnd)
  | positionSample (c : Crane)
  | inputExcursion (c : Crane) (input : EncInput) (level : Bool)
  | filterWindow (c : Crane) (which : FilterEnd)
  | keepaliveExpiry (c : Crane)
  | progressTimerExpiry (slot : Fin 64)
  | verificationIntervalExpiry
  | loopSample (zone : Fin 4) (value : Nat) (manualRelease : Bool)
  | clearanceTimerExpiry (zone : Fin 4)
  | travelTimerExpiry (shutter : Fin 3)
  | limitEdge (shutter : Fin 3) (input : LimitSwitch) (level : Bool)
  | fireResetInput
  | generatorTick
  | powerOn
  | lossOfMainSupply
  | resetAsserted
  | resetReleased (retentionValid : Bool) (levels : StartLevels)
  | characterReceived (p : Port) (frame : RxFrame)
  | breakEnd (p : Port)
deriving DecidableEq, Repr

end Sys2Proof
end

