-- ==== Sys2Proof/Machine/State.lean ====
section
/-! DEFINITION. The state of the part as plain data, block by block (00_scope 2.3), and the state after reset. -/

namespace Sys2Proof.Machine

/-- Why a step can stop. No rule of the manual stops the part, so there is no constructor. Nobody raises one. -/
inductive Fault
deriving DecidableEq, Repr

/-- Why a command can be without meaning. -/
inductive Refusal where
  /-- Raised by an arm of `exec` for a command that has no meaning yet; safe. No arm raises it in this model. -/
  | notModelled (mnemonic : String)
deriving DecidableEq, Repr

/-! ## Names of places, handles and orders -/

/-- The name of an order: slot number and generation (R42). -/
structure Handle where
  slot : Nat
  gen : Nat
deriving DecidableEq, Repr

/-- A source, destination or location (R190): a cell, a station and bay, a crane, or a station. -/
inductive Place where
  | cell (n : Nat)
  | bay (st : Station) (b : Nat)
  | crane (c : Crane)
  | station (st : Station)
deriving DecidableEq, Repr

/-- A compartment's state (R21). -/
inductive Comp where
  | free | occupied | pendingPick | claimed
deriving DecidableEq, Repr

/-! ## Bin directory (chapter 2) -/

/-- A bin's state together with its location (R18): the location is present in STORED, ON-CRANE and AT-BAY only. -/
inductive BinPlace where
  | unregistered
  | stored (cell : Nat)
  | onCrane (c : Crane)
  | atBay (st : Station) (b : Nat)
  | misplaced
deriving DecidableEq, Repr

/-- A bin record (R18). -/
structure Bin where
  place : BinPlace
  quarantine : Bool
  comps : List Comp
  order : Option Handle
deriving DecidableEq, Repr

/-- A bin record after a cold start (R39). -/
def Bin.cold : Bin where
  place := .unregistered
  quarantine := false
  comps := List.replicate 16 .occupied
  order := none

/-- A cell's state with the fields that are present in it (R23). -/
inductive CellState where
  | unverified
  | empty
  | occupied (bin : Nat)
  | reserved (dest : Handle)
  | suspect
  | blocked
deriving DecidableEq, Repr

/-- A cell record (R23). -/
structure Cell where
  state : CellState
  stamp : Option (BitVec 16)
  unread : Nat
deriving DecidableEq, Repr

/-- A cell record after a cold start (R39). -/
def Cell.cold : Cell where
  state := .unverified
  stamp := none
  unread := 0

/-- A bay's state with the fields that are present in it (R28). -/
inductive BayState where
  | empty
  | inbound (h : Handle)
  | occupied (bin : Nat)
  | outbound (bin : Nat)
deriving DecidableEq, Repr

/-- A bay record (R28). -/
structure Bay where
  state : BayState
  keep : Bool
  stowWanted : Bool
deriving DecidableEq, Repr

/-- A bay record after a cold start, and a bay that has become EMPTY (R28, R39). -/
def Bay.cold : Bay where
  state := .empty
  keep := false
  stowWanted := false

/-! ## Order table (chapter 3) -/

/-- R43. -/
inductive OrderKind where
  | fetch | stow | move | verify
deriving DecidableEq, Repr

/-- R43. -/
inductive Purpose where
  | loan | ret | auto | service
deriving DecidableEq, Repr

/-- R43: port C, port S, or PART for orders created by the part. -/
inductive Issuer where
  | C | S | part
deriving DecidableEq, Repr

/-- The states of a live order (R41, R43). -/
inductive OrderState where
  | queued | dispatched | loaded
deriving DecidableEq, Repr

/-- The final states (R46, R55). -/
inductive FinalState where
  | complete | cancelled | failed
deriving DecidableEq, Repr

/-- An order record (R43). The handle is the slot's number and generation. The progress timer is its time to expiry in
milliseconds, or stopped. -/
structure Order where
  kind : OrderKind
  purpose : Purpose
  bin : Option Nat
  source : Place
  dest : Option Place
  destBay : Option Nat
  crane : Crane
  issuer : Issuer
  authority : Nat
  seq : BitVec 32
  bypass : Nat
  loan : Option (BitVec 32)
  level : Nat
  state : OrderState
  stalled : Bool
  timer : Option Nat
deriving DecidableEq, Repr

/-- A slot of the order table (R41, R42). -/
structure Slot where
  gen : Nat
  order : Option Order
deriving DecidableEq, Repr

/-- A slot after a start (R64). -/
def Slot.cold : Slot where
  gen := 0
  order := none

/-! ## Crane records (chapter 5) -/

/-- R90. -/
inductive Direction where
  | east | west | none
deriving DecidableEq, Repr

/-- The causes of a trip, in the order of their codes (R103, R190). -/
inductive TripCause where
  | envelope | overspeed | encoder | slip | positionRange | link | break | fire | barrier | service | start
deriving DecidableEq, Repr

/-- The keepalive windows (R105). -/
inductive Window where
  | stopped | ms250 | ms500 | ms1000 | ms2000
deriving DecidableEq, Repr

/-- The keepalive state, with the time to expiry in milliseconds while RUNNING (R90). -/
inductive KeepaliveState where
  | stopped
  | running (ms : Nat)
  | expired
deriving DecidableEq, Repr

/-- What a REFERENCED crane holds and an UNREFERENCED crane does not (R90). -/
structure Reference where
  nHome : Counter
  phase : Option Counter
  x : Int
deriving DecidableEq, Repr

/-- One input filter (R91): the raw and filtered levels, and the window in microseconds of an excursion in progress. -/
structure Filter where
  raw : Bool
  filtered : Bool
  excursion : Option Nat
deriving DecidableEq, Repr

/-- A filter after a start: the filtered level is the raw level (R91). -/
def Filter.atLevel (level : Bool) : Filter where
  raw := level
  filtered := level
  excursion := none

/-- A crane's four filters (R91). -/
structure Filters where
  phase1 : Filter
  phase2 : Filter
  index : Filter
  home : Filter
deriving DecidableEq, Repr

/-- The filters at a start (R91). -/
def Filters.atLevels (l : CraneInputs) : Filters where
  phase1 := .atLevel l.phase1
  phase2 := .atLevel l.phase2
  index := .atLevel l.index
  home := .atLevel l.home

/-- A crane record (R90), the last ΔN8 that R110 and R111 read, the input filters (R91), and the dispatcher's waiting flag
for the crane (R76). -/
structure CraneRec where
  ref : Option Reference
  counter : Counter
  history : List Counter
  dN8 : Int
  speed : Nat
  direction : Direction
  margin : Nat
  envLo : Nat
  envHi : Nat
  touchFirst : Nat
  touchLast : Nat
  tripLatched : Bool
  tripFirst : Option TripCause
  tripCauses : List TripCause
  window : Window
  keepalive : KeepaliveState
  creep : Bool
  permit : Bool
  carried : Option Nat
  active : Option Handle
  lastCompleted : Option Handle
  lastLevel : Nat
  orphan : Bool
  waiting : Bool
  filters : Filters
deriving DecidableEq, Repr

/-- A crane record after a start (R112), with the margin m_fixed of the settings, the end segment of the crane as envelope
(`lo` to `hi`, segment `seg`), and the carried bin that a warm start keeps. -/
def CraneRec.atStart (mFixed lo hi seg : Nat) (carried : Option Nat) (levels : CraneInputs) : CraneRec where
  ref := none
  counter := 0
  history := List.replicate 8 0
  dN8 := 0
  speed := 0
  direction := .none
  margin := mFixed
  envLo := lo
  envHi := hi
  touchFirst := seg
  touchLast := seg
  tripLatched := true
  tripFirst := some .start
  tripCauses := [.start]
  window := .stopped
  keepalive := .stopped
  creep := false
  permit := false
  carried := carried
  active := none
  lastCompleted := none
  lastLevel := 0
  orphan := carried.isSome
  waiting := false
  filters := .atLevels levels

/-! ## Segment reservation table (chapter 6) -/

/-- R113. -/
inductive Seal where
  | open | sealPending | sealed
deriving DecidableEq, Repr

/-- A segment record (R113); holder `none` is NONE. -/
structure Segment where
  holder : Option Crane
  sealState : Seal
deriving DecidableEq, Repr

/-- A segment record after a start (R126). -/
def Segment.cold : Segment where
  holder := none
  sealState := .open

/-! ## Verification scheduler (chapter 8) -/

/-- What the scheduler holds for one crane (R149). -/
structure SchedCrane where
  credits : Nat
  cursor : Nat
  wrap : Bool
  lag : Bool
deriving DecidableEq, Repr

/-- R149. -/
inductive WingState where
  | normal | held
deriving DecidableEq, Repr

/-- The scheduler's state (R149). The verify set is kept in ascending order (log 16). -/
structure Scheduler where
  timer : Nat
  a : SchedCrane
  b : SchedCrane
  epoch : BitVec 16
  wing : WingState
  verifySet : List Nat
deriving DecidableEq, Repr

/-! ## Fire zone controller (chapter 9) -/

/-- A loop's class, raw or filtered (R164, R190). -/
inductive LoopClass where
  | normal | alarm | openFault | shortFault
deriving DecidableEq, Repr

/-- A loop sampler (R164, R165). -/
structure Loop where
  filtered : LoopClass
  candidate : Option LoopClass
  count : Nat
  lastValue : Option Nat
  lastRaw : Option LoopClass
deriving DecidableEq, Repr

/-- A loop sampler after a start (R187). -/
def Loop.cold : Loop where
  filtered := .normal
  candidate := none
  count := 0
  lastValue := none
  lastRaw := none

/-- R166. -/
inductive ZoneState where
  | inService | degraded | clearing | sealing | sealed | obstructed | recovering
deriving DecidableEq, Repr

/-- A zone record (R166). -/
structure Zone where
  state : ZoneState
  latch : Bool
  timer : Option Nat
deriving DecidableEq, Repr

/-- A zone record after a start (R187). -/
def Zone.cold : Zone where
  state := .inService
  latch := false
  timer := none

/-- R174. -/
inductive ShutterState where
  | open | hold | closing | closed | opening | jammed
deriving DecidableEq, Repr

/-- A shutter record (R174). The demand and the two outputs are derived from it and from the zones. -/
structure Shutter where
  state : ShutterState
  timer : Option Nat
  closedLimit : Bool
  openLimit : Bool
deriving DecidableEq, Repr

/-- A shutter that stands at the top: OPEN, with its open-limit alone asserted (R187). -/
def Shutter.atTop : Shutter where
  state := .open
  timer := none
  closedLimit := false
  openLimit := true

/-- The cause of a shutter's change of state (R180). -/
inductive ShutCause where
  | demand | reset | clear | limit | travel | drift | service
deriving DecidableEq, Repr

/-! ## Signal output unit (R184, R185) -/

/-- A pattern generator's phase and period parity (R184). -/
structure GenPhase where
  t : Nat
  odd : Bool
deriving DecidableEq, Repr

/-- A generator after a start or a restart (R184, R187). -/
def GenPhase.cold : GenPhase where
  t := 0
  odd := false

/-- A signal line's source (R185). -/
inductive Source where
  | low
  | high
  | gen (k : Nat)
  | notGen (k : Nat)
  | zoneAlarm (z : Nat)
  | anyAlarm
  | trouble
deriving DecidableEq, Repr

/-! ## Settings (chapter 11) -/

/-- The settings of one crane (R202, codes 1 to 9). -/
structure CraneSettings where
  gain : Nat
  home : Nat
  cpr : Nat
  filterWindow : Nat
  vMax : Nat
  creepMax : Nat
  aBrake : Nat
  tReact : Nat
  mFixed : Nat
deriving DecidableEq, Repr

/-- The default settings of a crane, with its home position (R202). -/
def CraneSettings.default (home : Nat) : CraneSettings where
  gain := 16384
  home := home
  cpr := 4096
  filterWindow := 2
  vMax := 4000
  creepMax := 250
  aBrake := 800
  tReact := 60
  mFixed := 150

/-- How a generator combines its raw pattern with its neighbour's (R184). -/
inductive CombineMode where
  | self | and | or | alternate
deriving DecidableEq, Repr

/-- The settings of one generator (R184, R202). -/
structure GenSettings where
  period : Nat
  start : Nat
  width : Nat
  mode : CombineMode
deriving DecidableEq, Repr

/-- The default settings of a generator (R202). -/
def GenSettings.default : GenSettings where
  period := 10
  start := 0
  width := 5
  mode := .self

/-- The parameter set but for the line sources (R202). -/
structure Settings where
  craneA : CraneSettings
  craneB : CraneSettings
  progressTimeout : Nat
  split : Nat
  leastFree : Nat
  interval : Nat
  shortTh : Nat
  alarmTh : Nat
  openTh : Nat
  debounce : Nat
  clearance : Nat
  travel : Nat
  gens : Table GenSettings
deriving DecidableEq, Repr

/-- The defaults (R202). -/
def Settings.default : Settings where
  craneA := .default 1200
  craneB := .default 99600
  progressTimeout := 120
  split := 80
  leastFree := 4
  interval := 60
  shortTh := 20
  alarmTh := 140
  openTh := 235
  debounce := 3
  clearance := 45
  travel := 20
  gens := []

/-! ## Link ports (chapter 10) -/

/-- The request kinds (R191). CANCEL is one kind, taken on ports C and S. -/
inductive Kind where
  | stat | rdbin | rdcell | rdord | rdcrn | rdseg | rdzone
  | fetch | pick | unpick | slot | place | unclaim | relbay | cancel
  | next | load | done | unable | tag | rsv | rel | clrt | keep
  | assign | clrsus | block | unblk | quar | unquar | setcmp | move | frel | stop | creep | crend
  | whold | wres | frst | sopen | set | rstrt
deriving DecidableEq, Repr

/-- The reasons of a NAK (R190). -/
inductive Reason where
  | range | role | authority | binState | binBusy | cellState | tableFull | zoneClosed | wingHeld | notOwner
  | conflict | barrier | notIdle | orderState | condition | check | line | length | unknownKind
deriving DecidableEq, Repr

/-- One field of an ACK or notice body (R190). An optional field is `absent`, or `present` followed by the field. -/
inductive Field where
  | absent
  | present
  /-- A number in a field of 1, 2, 3 or 4 bytes. -/
  | num (bytes n : Nat)
  /-- A number that may be negative, two's complement. -/
  | int (bytes : Nat) (n : Int)
  /-- A named value, by its code. -/
  | named (code : Nat)
  | handle (h : Handle)
  | loan (r : BitVec 32)
  | place (p : Place)
  | zoneSet (zones : List Nat)
  /-- A final state, whose byte the manual does not give (log 8). -/
  | final (f : FinalState)
  /-- A two-valued indication whose byte the manual does not give (log 8). -/
  | indication (b : Bool)
deriving DecidableEq, Repr

/-- The outcome an ENDED notice carries (R57). -/
inductive EndOutcome where
  | cancelledFire | cancelledService | failed
deriving DecidableEq, Repr

/-- The cause a VLAG notice carries (R154, R190). -/
inductive VlagCause where
  | tableFull | urgentLive
deriving DecidableEq, Repr

/-- The notices of the part (R191, R199), each with what it carries. -/
inductive Notice where
  | arrive (bin : Nat) (st : Station) (bay : Nat) (loan : Option (BitVec 32))
  | ended (h : Handle) (loan : Option (BitVec 32)) (outcome : EndOutcome)
  | zone (z : Nat) (state : ZoneState)
  | wait (c : Crane) (eligible : Nat)
  | evac (z : Nat) (segment : Option Nat)
  | trip (c : Crane) (first : Option TripCause) (causes : List TripCause) (referenced : Bool)
  | shut (k : Nat) (state : ShutterState) (cause : ShutCause)
  | susp (cell : Nat) (bin : Option Nat)
  | stall (h : Handle) (kind : OrderKind) (state : OrderState) (c : Crane) (bin : Option Nat)
  | vlag (c : Crane) (credits : Nat) (cause : VlagCause)
deriving DecidableEq, Repr

/-- A message the part sends (R189): a response to a request, or a notice. -/
inductive Message where
  | ack (kind : Kind) (fields : List Field)
  | nak (code : Byte) (reason : Reason) (detail : Option Nat)
  | notice (n : Notice)
deriving DecidableEq, Repr

/-- A character in the receive FIFO with its marker, its damage mark and its loss mark (R193, R194). -/
structure RxChar where
  data : Byte
  marker : Bool
  damage : Bool
  loss : Bool
deriving DecidableEq, Repr

/-- A message being assembled: its bytes in the order taken, head first, and whether it is marked damaged (R195). -/
structure Partial where
  bytes : List Byte
  damaged : Bool
deriving DecidableEq, Repr

/-- The assembler's finished item (R195, R196): a refusal, or a good message. -/
inductive Item where
  | refused (code : Byte) (reason : Reason)
  | message (code : Byte) (body : List Byte)
deriving DecidableEq, Repr

/-- The bit rates (R188). -/
inductive Rate where
  | r19200 | r57600 | r115200 | r230400
deriving DecidableEq, Repr

/-- A port's sticky flags (R200). -/
structure LineFlags where
  noise : Bool
  framing : Bool
  overrun : Bool
  brk : Bool
  damaged : Bool
  noticeLost : Bool
deriving DecidableEq, Repr

/-- All flags clear (R200, R201). -/
def LineFlags.clear : LineFlags where
  noise := false
  framing := false
  overrun := false
  brk := false
  damaged := false
  noticeLost := false

/-- A link port (chapter 10). `afterBreak` is the receiver waiting for the line to be 1 after a break (R193), `stopped` is
port S's request server after an accepted RSTRT (R205), `sending` is the message being transmitted. -/
structure LinkPort where
  straps : Straps
  rate : Rate
  afterBreak : Bool
  pendingLoss : Bool
  fifo : List RxChar
  partialMsg : Option Partial
  item : Option Item
  stopped : Bool
  slot : Option Message
  sending : Option Message
  queue : List Notice
  flags : LineFlags
deriving DecidableEq, Repr

/-- The bit rate that a port's two straps set (R188). -/
def rateOf : Straps → Rate
  | ⟨false, false⟩ => .r19200
  | ⟨true, false⟩ => .r57600
  | ⟨false, true⟩ => .r115200
  | ⟨true, true⟩ => .r230400

/-- A port after a start (R201), with the rate read from its straps. -/
def LinkPort.atStart (straps : Straps) : LinkPort where
  straps := straps
  rate := rateOf straps
  afterBreak := false
  pendingLoss := false
  fifo := []
  partialMsg := none
  item := none
  stopped := false
  slot := none
  sending := none
  queue := []
  flags := .clear

/-! ## Start-up (R205, R206) -/

/-- The condition of supply and reset input (R205): running; the reset input asserted while running; waiting at power-on
for the reset input to be deasserted; main supply lost. -/
inductive Power where
  | running | inReset | powerOnWait | unpowered
deriving DecidableEq, Repr

/-- The cold-start indicator (R206, R190). -/
inductive ColdStart where
  | clear | warm | cold
deriving DecidableEq, Repr

/-! ## The state -/

/-- The state of the part, and the queue of the commands that wait. -/
structure State where
  bins : Table Bin
  cells : Table Cell
  bays : Table Bay
  slots : Table Slot
  counter : BitVec 32
  craneA : CraneRec
  craneB : CraneRec
  segs : Table Segment
  sched : Scheduler
  loops : Table Loop
  zones : Table Zone
  shutters : Table Shutter
  manualRelease : Bool
  gens : Table GenPhase
  lines : Table Source
  settings : Settings
  portC : LinkPort
  portA : LinkPort
  portB : LinkPort
  portS : LinkPort
  power : Power
  coldStart : ColdStart
  pending : List Instr
deriving DecidableEq, Repr

/-- DESIGN CHOICE (log 4). The field-line levels at the modelled reset: straps low, every shutter at the top, encoder inputs
low, the manual-release input deasserted. -/
def resetLevels : StartLevels where
  strapsC := ⟨false, false⟩
  strapsA := ⟨false, false⟩
  strapsB := ⟨false, false⟩
  strapsS := ⟨false, false⟩
  limits0 := ⟨false, true⟩
  limits1 := ⟨false, true⟩
  limits2 := ⟨false, true⟩
  inputsA := ⟨false, false, false, false⟩
  inputsB := ⟨false, false, false, false⟩
  manualRelease := false

/-- The scheduler after a cold start with the default interval (R163). -/
def Scheduler.cold : Scheduler where
  timer := 60000
  a := ⟨0, 0, false, false⟩
  b := ⟨0, 0, false, false⟩
  epoch := 0
  wing := .normal
  verifySet := [0, 1, 2, 3]

/-- The part right after a power-on cold start (R206) at the levels `resetLevels`, with no command waiting. -/
def State.reset : State where
  bins := []
  cells := []
  bays := []
  slots := []
  counter := 0
  craneA := .atStart 150 0 2399 0 none resetLevels.inputsA
  craneB := .atStart 150 98400 100799 41 none resetLevels.inputsB
  segs := []
  sched := .cold
  loops := []
  zones := []
  shutters := []
  manualRelease := resetLevels.manualRelease
  gens := []
  lines := []
  settings := .default
  portC := .atStart resetLevels.strapsC
  portA := .atStart resetLevels.strapsA
  portB := .atStart resetLevels.strapsB
  portS := .atStart resetLevels.strapsS
  power := .running
  coldStart := .cold
  pending := []

end Sys2Proof.Machine
end

