-- ==== Sys2Proof/Decode.lean ====
section
/-! DEFINITION. Reading what comes over the wing link: the kind codes, the bodies of requests, and the check (R189 to R191).
The opcode table gives its rows no bits, so `decodeTableWord` spells no command (log 5). -/

namespace Sys2Proof

open Sys2Proof.Machine

/-- The command that a word spells by the table's bits: none, since no row has bits. -/
def decodeTableWord (_nbits _w : Nat) : Option Instr := none

/-! ## Kinds (R191) -/

/-- The kind code of a request kind (R191). -/
def kindCode : Kind → Byte
  | .stat => 0x01
  | .rdbin => 0x02
  | .rdcell => 0x03
  | .rdord => 0x04
  | .rdcrn => 0x05
  | .rdseg => 0x06
  | .rdzone => 0x07
  | .fetch => 0x10
  | .pick => 0x11
  | .unpick => 0x12
  | .slot => 0x13
  | .place => 0x14
  | .unclaim => 0x15
  | .relbay => 0x16
  | .cancel => 0x17
  | .next => 0x20
  | .load => 0x21
  | .done => 0x22
  | .unable => 0x23
  | .tag => 0x24
  | .rsv => 0x25
  | .rel => 0x26
  | .clrt => 0x27
  | .keep => 0x28
  | .assign => 0x30
  | .clrsus => 0x31
  | .block => 0x32
  | .unblk => 0x33
  | .quar => 0x34
  | .unquar => 0x35
  | .setcmp => 0x36
  | .move => 0x37
  | .frel => 0x38
  | .stop => 0x39
  | .creep => 0x3A
  | .crend => 0x3B
  | .whold => 0x3C
  | .wres => 0x3D
  | .frst => 0x3E
  | .sopen => 0x3F
  | .set => 0x40
  | .rstrt => 0x41

/-- The request kinds, in the order of their codes (R191). -/
def requestKinds : List Kind :=
  [.stat, .rdbin, .rdcell, .rdord, .rdcrn, .rdseg, .rdzone,
   .fetch, .pick, .unpick, .slot, .place, .unclaim, .relbay, .cancel,
   .next, .load, .done, .unable, .tag, .rsv, .rel, .clrt, .keep,
   .assign, .clrsus, .block, .unblk, .quar, .unquar, .setcmp, .move, .frel, .stop, .creep, .crend,
   .whold, .wres, .frst, .sopen, .set, .rstrt]

/-- The request kind of a code, if it is one (R191). -/
def kindOfCode (code : Byte) : Option Kind := requestKinds.find? (fun k => kindCode k == code)

/-- The ports on which a request kind is taken (R191). -/
def kindPorts : Kind → List Port
  | .stat | .rdbin | .rdcell | .rdord | .rdcrn | .rdseg | .rdzone => [.C, .A, .B, .S]
  | .fetch | .pick | .unpick | .slot | .place | .unclaim | .relbay => [.C]
  | .cancel => [.C, .S]
  | .next | .load | .done | .unable | .tag | .rsv | .rel | .clrt | .keep => [.A, .B]
  | .assign | .clrsus | .block | .unblk | .quar | .unquar | .setcmp | .move | .frel | .stop | .creep | .crend
  | .whold | .wres | .frst | .sopen | .set | .rstrt => [.S]

/-- The authority level of a port (R48, R197). -/
def portLevel : Port → Nat
  | .C => 3
  | .A => 2
  | .B => 2
  | .S => 1

/-- Step 3 of R197: the reason why a request kind is refused on a port, if it is. -/
def portRefusal (p : Port) (k : Kind) : Option Reason :=
  if (kindPorts k).contains p then none
  else if (kindPorts k).all (fun q => decide (portLevel q < portLevel p)) then some .authority
  else some .role

/-! ## Parameter codes (R202) -/

/-- A crane parameter (R202, codes 1 to 9). -/
inductive CraneParam where
  | gain | home | cpr | filterWindow | vMax | creepMax | aBrake | tReact | mFixed
deriving DecidableEq, Repr

/-- A generator parameter (R202, codes 48 + 4k to 51 + 4k). -/
inductive GenParam where
  | period | start | width | mode
deriving DecidableEq, Repr

/-- The parameters of the settings store (R202). -/
inductive Param where
  | crane (c : Crane) (q : CraneParam)
  | progressTimeout | split | leastFree | interval | shortTh | alarmTh | openTh | debounce | clearance | travel
  | gen (k : Nat) (q : GenParam)
  | line (n : Nat)
deriving DecidableEq, Repr

/-- The crane parameter of a code from 1 to 9 (R202). -/
def craneParamOf : Nat → Option CraneParam
  | 1 => some .gain
  | 2 => some .home
  | 3 => some .cpr
  | 4 => some .filterWindow
  | 5 => some .vMax
  | 6 => some .creepMax
  | 7 => some .aBrake
  | 8 => some .tReact
  | 9 => some .mFixed
  | _ => none

/-- The generator parameter of an offset from 0 to 3 (R202). -/
def genParamOf : Nat → GenParam
  | 0 => .period
  | 1 => .start
  | 2 => .width
  | _ => .mode

/-- The parameter of a code (R202). -/
def paramOf (code : Nat) : Option Param :=
  if code ≤ 9 then (craneParamOf code).map (.crane .A)
  else if 17 ≤ code ∧ code ≤ 25 then (craneParamOf (code - 16)).map (.crane .B)
  else if code = 32 then some .progressTimeout
  else if code = 33 then some .split
  else if code = 34 then some .leastFree
  else if code = 35 then some .interval
  else if code = 36 then some .shortTh
  else if code = 37 then some .alarmTh
  else if code = 38 then some .openTh
  else if code = 39 then some .debounce
  else if code = 40 then some .clearance
  else if code = 41 then some .travel
  else if 48 ≤ code ∧ code ≤ 63 then some (.gen ((code - 48) / 4) (genParamOf ((code - 48) % 4)))
  else if 64 ≤ code ∧ code ≤ 71 then some (.line (code - 64))
  else none

/-- The width in bytes of SET's value field (R202). -/
def paramWidth : Param → Nat
  | .crane _ .gain => 2
  | .crane _ .home => 3
  | .crane _ .cpr => 2
  | .crane _ .filterWindow => 1
  | .crane _ .vMax => 2
  | .crane _ .creepMax => 2
  | .crane _ .aBrake => 2
  | .crane _ .tReact => 1
  | .crane _ .mFixed => 2
  | .progressTimeout => 2
  | .split => 1
  | .leastFree => 1
  | .interval => 2
  | .shortTh => 1
  | .alarmTh => 1
  | .openTh => 1
  | .debounce => 1
  | .clearance => 1
  | .travel => 1
  | .gen _ _ => 1
  | .line _ => 1

/-! ## Bodies (R190; R197 step 4) -/

/-- A reader of a body: it takes bytes from the front, or refuses with LENGTH or RANGE. -/
abbrev BodyReader := StateT (List Byte) (Except Reason)

/-- An unsigned field of some bytes, high byte first; a body that ends too soon is refused with LENGTH. -/
def readNum : Nat → BodyReader Nat
  | 0 => pure 0
  | n + 1 => do
    match ← get with
    | [] => throw .length
    | b :: rest =>
      StateT.set rest
      let low ← readNum n
      pure (b.toNat * 256 ^ n + low)

/-- Some one-byte entries. -/
def readEntries : Nat → BodyReader (List Nat)
  | 0 => pure []
  | n + 1 => do
    let e ← readNum 1
    let rest ← readEntries n
    pure (e :: rest)

/-- A compartment list or zone set: a count, then one byte per entry (R190). -/
def readList : BodyReader (List Nat) := do
  let n ← readNum 1
  readEntries n

/-- An optional cell: a presence byte, then the cell. A presence byte other than 0 or 1 is refused with RANGE (R190, R197
step 4). -/
def readOptCell : BodyReader (Option Nat) := do
  match ← readNum 1 with
  | 0 => pure none
  | 1 => do
    let n ← readNum 2
    pure (some n)
  | _ => throw .range

/-- The result of TAG; a result code outside its codes is refused with RANGE (R190, R197 step 4). -/
def readResult : BodyReader TagResult := do
  match ← readNum 1 with
  | 0 => do
    let b ← readNum 2
    pure (.tag b)
  | 1 => pure .noBin
  | 2 => pure .unreadable
  | _ => throw .range

/-- A whole body: what is left over is refused with LENGTH (R197 step 4). -/
def readBody {α : Type} (r : BodyReader α) (body : List Byte) : Except Reason α :=
  match r body with
  | .ok (a, []) => .ok a
  | .ok (_, _ :: _) => .error .length
  | .error e => .error e

/-- An empty body. -/
def bodyNone : List Byte → Except Reason Unit := readBody (pure ())

/-- One field of some bytes. -/
def bodyNum (w : Nat) : List Byte → Except Reason Nat := readBody (readNum w)

/-- Two fields. -/
def bodyNum2 (w1 w2 : Nat) : List Byte → Except Reason (Nat × Nat) := readBody do
  let a ← readNum w1
  let b ← readNum w2
  pure (a, b)

/-- Three fields. -/
def bodyNum3 (w1 w2 w3 : Nat) : List Byte → Except Reason (Nat × Nat × Nat) := readBody do
  let a ← readNum w1
  let b ← readNum w2
  let c ← readNum w3
  pure (a, b, c)

/-- The operands of FETCH (R128). -/
structure FetchArgs where
  bin : Nat
  station : Nat
  picks : List Nat
  loan : BitVec 32
  authority : Nat
deriving DecidableEq, Repr

/-- FETCH(bin, station, pick list, loan reference, authority). -/
def bodyFetch : List Byte → Except Reason FetchArgs := readBody do
  let bin ← readNum 2
  let station ← readNum 1
  let picks ← readList
  let loan ← readNum 4
  let authority ← readNum 1
  pure ⟨bin, station, picks, BitVec.ofNat 32 loan, authority⟩

/-- The operands of DONE and UNABLE: the handle, UNABLE's reason, the cell or none. -/
structure ReportArgs where
  slot : Nat
  gen : Nat
  reason : Nat
  cell : Option Nat
deriving DecidableEq, Repr

/-- DONE(handle, cell or none). -/
def bodyDone : List Byte → Except Reason ReportArgs := readBody do
  let slot ← readNum 1
  let gen ← readNum 1
  let cell ← readOptCell
  pure ⟨slot, gen, 0, cell⟩

/-- UNABLE(handle, reason, cell or none). -/
def bodyUnable : List Byte → Except Reason ReportArgs := readBody do
  let slot ← readNum 1
  let gen ← readNum 1
  let reason ← readNum 1
  let cell ← readOptCell
  pure ⟨slot, gen, reason, cell⟩

/-- The operands of TAG. -/
structure TagArgs where
  slot : Nat
  gen : Nat
  result : TagResult
deriving DecidableEq, Repr

/-- TAG(handle, result). -/
def bodyTag : List Byte → Except Reason TagArgs := readBody do
  let slot ← readNum 1
  let gen ← readNum 1
  let result ← readResult
  pure ⟨slot, gen, result⟩

/-- ASSIGN(bin, cell or none). -/
def bodyAssign : List Byte → Except Reason (Nat × Option Nat) := readBody do
  let bin ← readNum 2
  let cell ← readOptCell
  pure (bin, cell)

/-- SETCMP(bin, list of 16 states). -/
def bodySetcmp : List Byte → Except Reason (Nat × List Nat) := readBody do
  let bin ← readNum 2
  let states ← readList
  pure (bin, states)

/-- WHOLD(verify set). -/
def bodyZones : List Byte → Except Reason (List Nat) := readBody readList

/-- SET(parameter, value): the value has the parameter's width; a code that names no parameter is refused with RANGE
(R203). -/
def bodySet : List Byte → Except Reason (Nat × Nat) := readBody do
  let code ← readNum 1
  match paramOf code with
  | none => throw .range
  | some q => do
    let value ← readNum (paramWidth q)
    pure (code, value)

/-! ## The check (R189) -/

/-- One bit of the CRC: generator polynomial 1021 hexadecimal. -/
def crcBit (c : BitVec 16) : BitVec 16 := if c.msb then (c <<< 1) ^^^ 0x1021 else c <<< 1

/-- One byte of the CRC, most significant bit first. -/
def crcByte (c : BitVec 16) (b : Byte) : BitVec 16 :=
  (List.range 8).foldl (fun c _ => crcBit c) (c ^^^ (b.setWidth 16 <<< 8))

/-- The check of a message: initial value FFFF hexadecimal, no final inversion. -/
def crc16 (bytes : List Byte) : BitVec 16 := bytes.foldl crcByte 0xFFFF

end Sys2Proof
end

