-- ==== Sys2Proof/Machine/Ops.lean ====
section
/-! DEFINITION. The named operations over tables and over the records of the state. A meaning reads and writes state through
these only. -/

namespace Sys2Proof.Machine

/-! ## Tables -/

/-- The record of number `k`: the listed one, else the default `d`. -/
def tableGet {α : Type} (d : α) : Table α → Nat → α
  | [], _ => d
  | (k', v) :: rest, k => if k' = k then v else tableGet d rest k

/-- The table without number `k`. -/
def tableErase {α : Type} (t : Table α) (k : Nat) : Table α :=
  t.filter (fun e => e.1 != k)

/-- The table with an entry put in before the first greater number. -/
def tableInsert {α : Type} : Table α → Nat → α → Table α
  | [], k, v => [(k, v)]
  | (k', v') :: rest, k, v =>
    if k < k' then (k, v) :: (k', v') :: rest else (k', v') :: tableInsert rest k v

/-- The table with record `v` at number `k`, in the canonical form: a default record is not listed. -/
def tableSet {α : Type} [DecidableEq α] (d : α) (t : Table α) (k : Nat) (v : α) : Table α :=
  if v = d then tableErase t k else tableInsert (tableErase t k) k v

/-- The table with `f` applied to every record. `f` leaves the default record as it is. -/
def tableMap {α : Type} [DecidableEq α] (d : α) (f : α → α) (t : Table α) : Table α :=
  t.filterMap (fun e => if f e.2 = d then none else some (e.1, f e.2))

/-- The numbers are strictly rising. -/
def tableSorted {α : Type} : Table α → Bool
  | [] => true
  | e :: rest => rest.all (fun e' => decide (e.1 < e'.1)) && tableSorted rest

/-- The canonical form of a table: numbers strictly rising, no entry equal to the default record. -/
def tableWf {α : Type} [DecidableEq α] (d : α) (t : Table α) : Bool :=
  tableSorted t && t.all (fun e => decide (e.2 ≠ d))

/-! ## Searches and arithmetic -/

/-- The first of `count` numbers, from `start` upward, that passes. -/
def findUp (p : Nat → Bool) : (start count : Nat) → Option Nat
  | _, 0 => none
  | i, n + 1 => if p i then some i else findUp p (i + 1) n

/-- The first of `count` numbers, from `start` downward, that passes. -/
def findDown (p : Nat → Bool) : (start count : Nat) → Option Nat
  | _, 0 => none
  | i, n + 1 => if p i then some i else findDown p (i - 1) n

/-- The quotient rounded up (00_scope 4.1.5, ceil). -/
def divCeil (n d : Nat) : Nat := (n + d - 1) / d

/-- The quotient rounded to nearest, ties away from zero (00_scope 4.1.5). -/
def divNearest (n : Int) (d : Nat) : Int :=
  let q : Nat := (2 * n.natAbs + d) / (2 * d)
  if 0 ≤ n then q else -q

/-- The whole seconds of a time in milliseconds, rounded up (R63). -/
def secondsUp (ms : Nat) : Nat := divCeil ms 1000

/-- The numbers from `lo` to `hi`, both included. -/
def upTo (lo hi : Nat) : List Nat := List.range' lo (hi + 1 - lo)

/-! ## Cranes, stations and ports -/

/-- The crane that is not this one. -/
def otherCrane : Crane → Crane
  | .A => .B
  | .B => .A

/-- The port of a crane's controller (00_scope 2.1). -/
def portOf : Crane → Port
  | .A => .A
  | .B => .B

/-- The crane whose controller is attached to the port (00_scope 2.1). -/
def craneOfPort : Port → Option Crane
  | .A => some .A
  | .B => some .B
  | .C => none
  | .S => none

/-- The station a crane serves (R2). -/
def stationOf : Crane → Station
  | .A => .W
  | .B => .E

/-- The crane that serves a station (R2). -/
def craneOf : Station → Crane
  | .W => .A
  | .E => .B

/-- The code of a crane (R190). -/
def craneCode : Crane → Nat
  | .A => 0
  | .B => 1

/-- The code of a station (R190). -/
def stationCode : Station → Nat
  | .W => 0
  | .E => 1

/-- The number of a bay among the four (R2). -/
def bayIndex (st : Station) (b : Nat) : Nat := 2 * b + stationCode st

/-! ## Reading records -/

def State.bin (s : State) (n : Nat) : Bin := tableGet .cold s.bins n
def State.cell (s : State) (n : Nat) : Cell := tableGet .cold s.cells n
def State.bay (s : State) (st : Station) (b : Nat) : Bay := tableGet .cold s.bays (bayIndex st b)
def State.slot (s : State) (i : Nat) : Slot := tableGet .cold s.slots i
def State.seg (s : State) (n : Nat) : Segment := tableGet .cold s.segs n
def State.loop (s : State) (z : Nat) : Loop := tableGet .cold s.loops z
def State.zone (s : State) (z : Nat) : Zone := tableGet .cold s.zones z
def State.shutter (s : State) (k : Nat) : Shutter := tableGet .atTop s.shutters k
def State.gen (s : State) (k : Nat) : GenPhase := tableGet .cold s.gens k
def State.line (s : State) (n : Nat) : Source := tableGet .low s.lines n
def State.genSettings (s : State) (k : Nat) : GenSettings := tableGet .default s.settings.gens k

/-- Crane X's record (R90). -/
def State.crane (s : State) : Crane → CraneRec
  | .A => s.craneA
  | .B => s.craneB

/-- Crane X's settings (R202). -/
def State.craneSettings (s : State) : Crane → CraneSettings
  | .A => s.settings.craneA
  | .B => s.settings.craneB

/-- The scheduler's items for crane X (R149). -/
def State.schedCrane (s : State) : Crane → SchedCrane
  | .A => s.sched.a
  | .B => s.sched.b

/-- A link port's state. -/
def State.port (s : State) : Port → LinkPort
  | .C => s.portC
  | .A => s.portA
  | .B => s.portB
  | .S => s.portS

/-! ## Writing records -/

def State.setBin (s : State) (n : Nat) (r : Bin) : State := { s with bins := tableSet .cold s.bins n r }
def State.setCell (s : State) (n : Nat) (r : Cell) : State := { s with cells := tableSet .cold s.cells n r }
def State.setBay (s : State) (st : Station) (b : Nat) (r : Bay) : State :=
  { s with bays := tableSet .cold s.bays (bayIndex st b) r }
def State.setSlot (s : State) (i : Nat) (r : Slot) : State := { s with slots := tableSet .cold s.slots i r }
def State.setCounter (s : State) (n : BitVec 32) : State := { s with counter := n }
def State.setSeg (s : State) (n : Nat) (r : Segment) : State := { s with segs := tableSet .cold s.segs n r }
def State.setSched (s : State) (r : Scheduler) : State := { s with sched := r }
def State.setLoop (s : State) (z : Nat) (r : Loop) : State := { s with loops := tableSet .cold s.loops z r }
def State.setZone (s : State) (z : Nat) (r : Zone) : State := { s with zones := tableSet .cold s.zones z r }
def State.setShutter (s : State) (k : Nat) (r : Shutter) : State :=
  { s with shutters := tableSet .atTop s.shutters k r }
def State.setManual (s : State) (level : Bool) : State := { s with manualRelease := level }
def State.setGen (s : State) (k : Nat) (r : GenPhase) : State := { s with gens := tableSet .cold s.gens k r }
def State.setLine (s : State) (n : Nat) (r : Source) : State := { s with lines := tableSet .low s.lines n r }
def State.setSettings (s : State) (r : Settings) : State := { s with settings := r }
def State.setPower (s : State) (p : Power) : State := { s with power := p }
def State.setColdStart (s : State) (c : ColdStart) : State := { s with coldStart := c }

def State.setCrane (s : State) (c : Crane) (r : CraneRec) : State :=
  match c with
  | .A => { s with craneA := r }
  | .B => { s with craneB := r }

def State.setSchedCrane (s : State) (c : Crane) (r : SchedCrane) : State :=
  match c with
  | .A => { s with sched := { s.sched with a := r } }
  | .B => { s with sched := { s.sched with b := r } }

def State.setPort (s : State) (p : Port) (q : LinkPort) : State :=
  match p with
  | .C => { s with portC := q }
  | .A => { s with portA := q }
  | .B => { s with portB := q }
  | .S => { s with portS := q }

/-! ## Orders by handle and by slot -/

/-- The live order a handle names (R42). -/
def State.orderOf (s : State) (h : Handle) : Option Order :=
  let sl := s.slot h.slot
  if sl.gen = h.gen then sl.order else none

/-- The handle of the order in a slot (R42). -/
def State.handleAt (s : State) (i : Nat) : Handle := ⟨i, (s.slot i).gen⟩

/-- Slot `i` with its order replaced; the generation is kept (R42). -/
def State.setOrder (s : State) (i : Nat) (o : Option Order) : State :=
  s.setSlot i { s.slot i with order := o }

/-- The 64 slot numbers, ascending (R41). -/
def slotNumbers : List Nat := List.range 64

/-- The live orders with their slots, in ascending slot number (R41). -/
def State.liveOrders (s : State) : List (Nat × Order) :=
  slotNumbers.filterMap (fun i => (s.slot i).order.map (fun o => (i, o)))

/-- The number of live orders (R47). -/
def State.liveCount (s : State) : Nat := s.liveOrders.length

/-- The lowest-numbered free slot (R42). -/
def State.freeSlot (s : State) : Option Nat :=
  slotNumbers.find? (fun i => (s.slot i).order.isNone)

/-! ## Holdings (R113) -/

/-- The 42 segment numbers, ascending (R1). -/
def segmentNumbers : List Nat := List.range 42

/-- Crane X's holding: the segments whose holder is X, ascending (R113). -/
def State.holding (s : State) (c : Crane) : List Nat :=
  segmentNumbers.filter (fun n => (s.seg n).holder == some c)

/-- The first and last segment of crane X's holding, or none when it is empty (R113). -/
def State.holdingEnds (s : State) (c : Crane) : Option (Nat × Nat) :=
  match (s.holding c).head?, (s.holding c).getLast? with
  | some a, some b => some (a, b)
  | _, _ => none

/-- The segment is held by crane X. -/
def State.holds (s : State) (c : Crane) (n : Nat) : Bool := (s.seg n).holder == some c

/-! ## Running -/

/-- The part takes events: main supply is present and no start is awaited (R205). -/
def State.running (s : State) : Bool := s.power == .running

/-- What a meaning answers. -/
abbrev Result := Host.Outcome State Fault Refusal

/-- The state after an event of the part: taken while it runs, else without effect (R205; log 2). -/
def eventState (s : State) (f : State → State) : State := if s.running then f s else s

/-- An event of the part. -/
def whenRunning (s : State) (f : State → State) : Result := .next (eventState s f)

end Sys2Proof.Machine
end

