-- ==== Sys2Proof/Machine/Geometry.lean ====
section
/-! DEFINITION. Wing geometry and addressing (chapter 1): positions, segments, cells, zones, shutters, and the current
segment of a crane. -/

namespace Sys2Proof.Machine

/-- The last position of the rail (R1). -/
def railEnd : Nat := 100799

/-- A position clamped into the rail (R1). -/
def clampRail (x : Int) : Nat := if x < 0 then 0 else if (railEnd : Int) < x then railEnd else x.toNat

/-- The segment of a position, clamped into the rail (R1). -/
def segmentOfPosition (x : Int) : Nat := clampRail x / 2400

/-- The number of cells (R3). -/
def cellCount : Nat := 3840

/-- The column of a cell (R3). -/
def cellColumn (n : Nat) : Nat := n / 24

/-- The level of a cell (R3). -/
def cellLevel (n : Nat) : Nat := n % 24 / 2

/-- The side of a cell (R3). -/
def cellSide (n : Nat) : Nat := n % 2

/-- The cell at a column, level and side (R3). -/
def cellAt (column level side : Nat) : Nat := column * 24 + level * 2 + side

/-- The segment of a cell (R4). -/
def cellSegment (n : Nat) : Nat := 1 + n / 96

/-- The segment of a station (R2, R4). -/
def stationSegment : Station → Nat
  | .W => 0
  | .E => 41

/-- A crane's end segment (R2). -/
def endSegment (c : Crane) : Nat := stationSegment (stationOf c)

/-- The zone of a segment (R5). -/
def zoneOfSegment (n : Nat) : Nat := if n ≤ 10 then 0 else if n ≤ 20 then 1 else if n ≤ 30 then 2 else 3

/-- The zone of a cell (R5). -/
def zoneOfCell (n : Nat) : Nat := zoneOfSegment (cellSegment n)

/-- The zone of a station (R5). -/
def zoneOfStation (st : Station) : Nat := zoneOfSegment (stationSegment st)

/-- The first segment of a zone (R5). -/
def zoneFirst (z : Nat) : Nat := if z = 0 then 0 else 10 * z + 1

/-- The last segment of a zone (R5). -/
def zoneLast (z : Nat) : Nat := if z = 3 then 41 else 10 * z + 10

/-- The segments of a zone (R5). -/
def zoneSegments (z : Nat) : List Nat := upTo (zoneFirst z) (zoneLast z)

/-- The west boundary segment of a shutter (R6). -/
def shutterWest (k : Nat) : Nat := 10 * k + 10

/-- The east boundary segment of a shutter (R6). -/
def shutterEast (k : Nat) : Nat := 10 * k + 11

/-- The three shutters (R6). -/
def shutterNumbers : List Nat := [0, 1, 2]

/-- The four zones (R5). -/
def zoneNumbers : List Nat := [0, 1, 2, 3]

/-- The shutters of a zone, lowest number first (R6). -/
def zoneShutters (z : Nat) : List Nat := shutterNumbers.filter (fun k => decide (k = z ∨ k + 1 = z))

/-- Shutter `k` separates two segments (R7). -/
def separates (k a b : Nat) : Bool :=
  decide (a ≤ shutterWest k ∧ shutterEast k ≤ b ∨ b ≤ shutterWest k ∧ shutterEast k ≤ a)

/-- The run of segments `a` to `b` spans shutter `k` (R7). -/
def spans (k a b : Nat) : Bool := decide (a ≤ shutterWest k ∧ shutterEast k ≤ b)

/-- The shutter is OPEN; HOLD is not OPEN (R6). -/
def State.shutterOpen (s : State) (k : Nat) : Bool := (s.shutter k).state == .open

/-- A place in segment `b` is beyond a non-OPEN shutter as seen from segment `a` (R7). -/
def State.beyond (s : State) (a b : Nat) : Bool :=
  shutterNumbers.any (fun k => !s.shutterOpen k && separates k a b)

/-- Crane X straddles shutter `k` (R7). -/
def State.straddles (s : State) (c : Crane) (k : Nat) : Bool :=
  s.holds c (shutterWest k) && s.holds c (shutterEast k)

/-- Crane X's last touched segments span shutter `k` (R7, R101). -/
def State.touchSpans (s : State) (c : Crane) (k : Nat) : Bool :=
  spans k (s.crane c).touchFirst (s.crane c).touchLast

/-- A crane's current segment (R8). -/
def State.currentSegment (s : State) (c : Crane) : Nat :=
  match (s.crane c).ref with
  | some r => segmentOfPosition r.x
  | none => endSegment c

/-- The zone is IN-SERVICE. -/
def State.inService (s : State) (z : Nat) : Bool := (s.zone z).state == .inService

/-- The zone is CLEARING, SEALING, SEALED or OBSTRUCTED: it demands its shutters closed (R174). -/
def ZoneState.demands : ZoneState → Bool
  | .clearing => true
  | .sealing => true
  | .sealed => true
  | .obstructed => true
  | .inService => false
  | .degraded => false
  | .recovering => false

/-- Closure of shutter `k` is demanded (R174). -/
def State.demanded (s : State) (k : Nat) : Bool :=
  (s.zone k).state.demands || (s.zone (k + 1)).state.demands

end Sys2Proof.Machine
end

