-- ==== Sys2Proof/Machine/Flags.lean ====
section
/-! DEFINITION. The flags and sets of named values: trip causes, sticky line flags, the drive permit, and the panel and signal
outputs that follow the state. -/

namespace Sys2Proof.Machine

/-- The code of a trip cause, which is its bit in a cause set (R190). -/
def TripCause.code : TripCause → Nat
  | .envelope => 0
  | .overspeed => 1
  | .encoder => 2
  | .slip => 3
  | .positionRange => 4
  | .link => 5
  | .break => 6
  | .fire => 7
  | .barrier => 8
  | .service => 9
  | .start => 10

/-- A cause set with a cause added; sets are lists in ascending code without repeats (00_scope 4.2.4). -/
def addCause : List TripCause → TripCause → List TripCause
  | [], c => [c]
  | c' :: rest, c =>
    if c' = c then c' :: rest else if c.code < c'.code then c :: c' :: rest else c' :: addCause rest c

/-- A trip record's fields with a cause latched (R102), and the creep permission that any cause but FIRE clears (R103). -/
def CraneRec.withTrip (r : CraneRec) (cause : TripCause) : CraneRec :=
  { r with
    tripLatched := true
    tripFirst := if r.tripLatched then r.tripFirst else some cause
    tripCauses := if r.tripLatched then addCause r.tripCauses cause else [cause]
    creep := if cause = .fire then r.creep else false }

/-- The cause is already in the latched cause set (R102). -/
def CraneRec.hasTrip (r : CraneRec) (cause : TripCause) : Bool :=
  r.tripLatched && r.tripCauses.contains cause

/-- The trip condition of the drive permit: the latch is clear, or FIRE is its only cause and creep is permitted (R104). -/
def CraneRec.tripAllows (r : CraneRec) : Bool :=
  !r.tripLatched || (r.tripCauses == [.fire] && r.creep)

/-- The keepalive state is RUNNING (R104, R105). -/
def CraneRec.keepaliveRunning (r : CraneRec) : Bool :=
  match r.keepalive with
  | .running _ => true
  | .stopped => false
  | .expired => false

/-- The conditions of the drive permit (R104). -/
def State.permitHolds (s : State) (c : Crane) : Bool :=
  (s.crane c).tripAllows && (s.crane c).keepaliveRunning &&
    ((s.crane c).ref.isSome || s.holds c (endSegment c))

/-- Crane X's drive permit, evaluated again (R104). -/
def State.refreshPermit (s : State) (c : Crane) : State :=
  s.setCrane c { s.crane c with permit := s.permitHolds c }

/-- The drive-enable line: it follows the permit, and is deasserted while the part does not run (R104, R205). -/
def State.driveEnable (s : State) (c : Crane) : Bool := s.running && (s.crane c).permit

/-- The window of the keepalive in milliseconds (R105). -/
def Window.ms : Window → Nat
  | .stopped => 0
  | .ms250 => 250
  | .ms500 => 500
  | .ms1000 => 1000
  | .ms2000 => 2000

/-- The loop class is OPEN-FAULT or SHORT-FAULT. -/
def LoopClass.isFault : LoopClass → Bool
  | .openFault => true
  | .shortFault => true
  | .normal => false
  | .alarm => false

/-- The condition of the trouble output (R183). -/
def State.trouble (s : State) : Bool :=
  zoneNumbers.any (fun z => (s.loop z).filtered.isFault) ||
    shutterNumbers.any (fun k => (s.shutter k).state == .jammed) ||
    zoneNumbers.any (fun z => (s.zone z).state == .obstructed)

/-- The trouble output line (R183, R205). -/
def State.troubleOutput (s : State) : Bool := s.running && s.trouble

/-- The condition of zone z's zone-sealed output (R183). -/
def State.zoneSealed (s : State) (z : Nat) : Bool := (s.zone z).state == .sealed

/-- Zone z's zone-sealed output line (R183, R205). -/
def State.zoneSealedOutput (s : State) (z : Nat) : Bool := s.running && s.zoneSealed z

/-- Shutter k's close output (R174, R205). -/
def State.closeOutput (s : State) (k : Nat) : Bool := s.running && (s.shutter k).state == .closing

/-- Shutter k's open output (R174, R205). -/
def State.openOutput (s : State) (k : Nat) : Bool := s.running && (s.shutter k).state == .opening

/-- The raw pattern of generator k (R184): on while S ≤ t < S + W. -/
def State.rawPattern (s : State) (k : Nat) : Bool :=
  decide ((s.genSettings k).start ≤ (s.gen k).t ∧ (s.gen k).t < (s.genSettings k).start + (s.genSettings k).width)

/-- The neighbour of generator k: one below, g3 for g0 (R184). -/
def genNeighbour (k : Nat) : Nat := if k = 0 then 3 else k - 1

/-- The output of generator k (R184). -/
def State.genOutput (s : State) (k : Nat) : Bool :=
  let own := s.rawPattern k
  let next := s.rawPattern (genNeighbour k)
  match (s.genSettings k).mode with
  | .self => own
  | .and => own && next
  | .or => own || next
  | .alternate => if (s.gen k).odd then next else own

/-- The value of a signal line's source (R185). -/
def State.sourceValue (s : State) : Source → Bool
  | .low => false
  | .high => true
  | .gen k => s.genOutput k
  | .notGen k => !s.genOutput k
  | .zoneAlarm z => (s.zone z).latch
  | .anyAlarm => zoneNumbers.any (fun z => (s.zone z).latch)
  | .trouble => s.trouble

/-- Signal line n (R185, R205). -/
def State.signalLine (s : State) (n : Nat) : Bool := s.running && s.sourceValue (s.line n)

end Sys2Proof.Machine
end

