-- ==== Sys2Proof/Machine/Encoding.lean ====
section
/-! DEFINITION. What the part sends: the codes of named values, the fields, bodies and characters of responses and notices
(R188 to R190). -/

namespace Sys2Proof.Machine

/-! ## Codes of named values (R190): the order of the record's table, or the code table's own codes -/

def BinPlace.code : BinPlace → Nat
  | .unregistered => 0
  | .stored _ => 1
  | .onCrane _ => 2
  | .atBay _ _ => 3
  | .misplaced => 4

def CellState.code : CellState → Nat
  | .unverified => 0
  | .empty => 1
  | .occupied _ => 2
  | .reserved _ => 3
  | .suspect => 4
  | .blocked => 5

def BayState.code : BayState → Nat
  | .empty => 0
  | .inbound _ => 1
  | .occupied _ => 2
  | .outbound _ => 3

def Comp.code : Comp → Nat
  | .free => 0
  | .occupied => 1
  | .pendingPick => 2
  | .claimed => 3

def OrderKind.code : OrderKind → Nat
  | .fetch => 0
  | .stow => 1
  | .move => 2
  | .verify => 3

def Purpose.code : Purpose → Nat
  | .loan => 0
  | .ret => 1
  | .auto => 2
  | .service => 3

def Issuer.code : Issuer → Nat
  | .C => 0
  | .S => 1
  | .part => 2

def OrderState.code : OrderState → Nat
  | .queued => 0
  | .dispatched => 1
  | .loaded => 2

def FinalState.code : FinalState → Nat
  | .complete => 0
  | .cancelled => 1
  | .failed => 2

def Direction.code : Direction → Nat
  | .east => 0
  | .west => 1
  | .none => 2

def Window.code : Window → Nat
  | .stopped => 0
  | .ms250 => 1
  | .ms500 => 2
  | .ms1000 => 3
  | .ms2000 => 4

def KeepaliveState.code : KeepaliveState → Nat
  | .stopped => 0
  | .running _ => 1
  | .expired => 2

/-- R113: NONE, A, B. -/
def holderCode : Option Crane → Nat
  | none => 0
  | some .A => 1
  | some .B => 2

def Seal.code : Seal → Nat
  | .open => 0
  | .sealPending => 1
  | .sealed => 2

def WingState.code : WingState → Nat
  | .normal => 0
  | .held => 1

def LoopClass.code : LoopClass → Nat
  | .normal => 0
  | .alarm => 1
  | .openFault => 2
  | .shortFault => 3

def ZoneState.code : ZoneState → Nat
  | .inService => 0
  | .degraded => 1
  | .clearing => 2
  | .sealing => 3
  | .sealed => 4
  | .obstructed => 5
  | .recovering => 6

def ShutterState.code : ShutterState → Nat
  | .open => 0
  | .hold => 1
  | .closing => 2
  | .closed => 3
  | .opening => 4
  | .jammed => 5

def ShutCause.code : ShutCause → Nat
  | .demand => 0
  | .reset => 1
  | .clear => 2
  | .limit => 3
  | .travel => 4
  | .drift => 5
  | .service => 6

def EndOutcome.code : EndOutcome → Nat
  | .cancelledFire => 0
  | .cancelledService => 1
  | .failed => 2

def VlagCause.code : VlagCause → Nat
  | .tableFull => 0
  | .urgentLive => 1

def ColdStart.code : ColdStart → Nat
  | .clear => 0
  | .warm => 1
  | .cold => 2

/-- The code of a reason (R190). -/
def Reason.code : Reason → Nat
  | .range => 1
  | .role => 2
  | .authority => 3
  | .binState => 4
  | .binBusy => 5
  | .cellState => 6
  | .tableFull => 7
  | .zoneClosed => 8
  | .wingHeld => 9
  | .notOwner => 10
  | .conflict => 11
  | .barrier => 12
  | .notIdle => 13
  | .orderState => 14
  | .condition => 15
  | .check => 16
  | .line => 17
  | .length => 18
  | .unknownKind => 19

/-! ## Details of CONDITION (R190) -/

def detailMoving : Nat := 1
def detailEnvelope : Nat := 2
def detailKeepalive : Nat := 3
def detailZone : Nat := 4
def detailState : Nat := 5
def detailLoop : Nat := 6
def detailBarrier : Nat := 7

/-! ## Fields -/

/-- A flag whose record table lists it as "set or clear", "on or off" or "demanded or not": the first listed value is 0 (R190;
DEDUCED, log 8). -/
def flagField (b : Bool) : Field := .named (if b then 0 else 1)

/-- An optional field (R190). -/
def optField {α : Type} (f : α → Field) : Option α → List Field
  | none => [.absent]
  | some a => [.present, f a]

/-- A cause set as a mask in two bytes, cause 0 in the least significant bit (R190). -/
def causeMask (l : List TripCause) : Field := .num 2 (l.foldl (fun m c => m + 2 ^ c.code) 0)

/-- The sticky flags as a mask in one byte (R190). -/
def LineFlags.mask (f : LineFlags) : Nat :=
  f.noise.toNat + 2 * f.framing.toNat + 4 * f.overrun.toNat + 8 * f.brk.toNat + 16 * f.damaged.toNat +
    32 * f.noticeLost.toNat

/-- A crane's holding where it may be empty, first and last segment or the empty indication (R119, R122, R123). The two fields are
absent together: the model gives the pair one presence byte (DESIGN CHOICE, log 9). -/
def holdingFields : Option (Nat × Nat) → List Field
  | none => [.absent]
  | some (a, b) => [.present, .num 1 a, .num 1 b]

/-- A crane's holding where it cannot be empty, first and last segment: neither is optional, so R190 gives no presence byte
(R116). -/
def heldFields : Option (Nat × Nat) → List Field
  | none => []
  | some (a, b) => [.num 1 a, .num 1 b]

/-- The low `w` bytes of a number, high byte first (R190). -/
def numBytes : Nat → Nat → List Byte
  | 0, _ => []
  | w + 1, n => BitVec.ofNat 8 (n / 256 ^ w) :: numBytes w n

/-- The bytes of a place (R190). -/
def Place.bytes : Place → List Byte
  | .cell n => 0 :: numBytes 2 n
  | .bay st b => 1 :: (numBytes 1 (stationCode st) ++ numBytes 1 b)
  | .crane c => 2 :: numBytes 1 (craneCode c)
  | .station st => 3 :: numBytes 1 (stationCode st)

/-- The bytes of a field (R190). -/
def Field.bytes : Field → List Byte
  | .absent => [0]
  | .present => [1]
  | .num w n => numBytes w n
  | .int w n => numBytes w (n % (256 ^ w : Nat)).toNat
  | .named code => numBytes 1 code
  | .handle h => numBytes 1 h.slot ++ numBytes 1 h.gen
  | .loan r => numBytes 4 r.toNat
  | .place p => p.bytes
  | .zoneSet zs => numBytes 1 zs.length ++ zs.flatMap (numBytes 1)
  | .final f => [Config.finalStateByte f.code]
  | .indication b => [Config.indicationByte b]

/-! ## Notices (R191, R199) -/

/-- The kind code of a notice (R191, 70 to 79). -/
def Notice.kindCode : Notice → Byte
  | .arrive .. => 0x70
  | .ended .. => 0x71
  | .zone .. => 0x72
  | .wait .. => 0x73
  | .evac .. => 0x74
  | .trip .. => 0x75
  | .shut .. => 0x76
  | .susp .. => 0x77
  | .stall .. => 0x78
  | .vlag .. => 0x79

/-- The number of a notice's subject, unique within its kind: a bin, zone, crane, shutter or cell number, or a handle as
slot and generation (R199). -/
def Notice.subject : Notice → Nat × Nat
  | .arrive bin .. => (bin, 0)
  | .ended h .. => (h.slot, h.gen)
  | .zone z _ => (z, 0)
  | .wait c _ => (craneCode c, 0)
  | .evac z _ => (z, 0)
  | .trip c .. => (craneCode c, 0)
  | .shut k .. => (k, 0)
  | .susp cell _ => (cell, 0)
  | .stall h .. => (h.slot, h.gen)
  | .vlag c .. => (craneCode c, 0)

/-- Two notices have the same kind and subject (R199). -/
def Notice.sameAs (m n : Notice) : Bool := m.kindCode == n.kindCode && m.subject == n.subject

/-- The fields a notice carries, in the order its rule names them. The first cause in TRIP is an optional field of the crane record
(R90): it keeps its presence byte, although a trip always has one (DESIGN CHOICE, log 9). -/
def Notice.fields : Notice → List Field
  | .arrive bin st bay loan =>
    [.num 2 bin, .num 1 (stationCode st), .num 1 bay] ++ optField .loan loan
  | .ended h loan outcome => [.handle h] ++ optField .loan loan ++ [.named outcome.code]
  | .zone z state => [.num 1 z, .named state.code]
  | .wait c n => [.num 1 (craneCode c), .num 1 n]
  | .evac z segment => [.num 1 z] ++ optField (.num 1) segment
  | .trip c first causes referenced =>
    [.num 1 (craneCode c)] ++ optField (fun t => .named t.code) first ++
      [causeMask causes, .named (if referenced then 1 else 0)]
  | .shut k state cause => [.num 1 k, .named state.code, .named cause.code]
  | .susp cell bin => [.num 2 cell] ++ optField (.num 2) bin
  | .stall h kind state c bin =>
    [.handle h, .named kind.code, .named state.code, .num 1 (craneCode c)] ++ optField (.num 2) bin
  | .vlag c credits cause => [.num 1 (craneCode c), .num 1 credits, .named cause.code]

/-! ## Messages (R188, R189) -/

/-- The kind code of a message the part sends (R191). -/
def Message.kindCode : Message → Byte
  | .ack .. => 0x60
  | .nak .. => 0x61
  | .notice n => n.kindCode

/-- The body of a message the part sends (R190). -/
def Message.body : Message → List Byte
  | .ack k fields => Sys2Proof.kindCode k :: fields.flatMap Field.bytes
  | .nak code reason detail =>
    code :: (numBytes 1 reason.code ++ (optField (.num 2) detail).flatMap Field.bytes)
  | .notice n => n.fields.flatMap Field.bytes

/-- The bytes of a message: kind, length, body, check (R189). -/
def Message.bytes (m : Message) : List Byte :=
  let head := m.kindCode :: BitVec.ofNat 8 m.body.length :: m.body
  head ++ numBytes 2 (crc16 head).toNat

/-- The characters of a message, each a byte and its marker bit (R188): marker 1 on the head alone. -/
def Message.characters (m : Message) : List (Byte × Bool) :=
  m.bytes.zipIdx.map (fun e => (e.1, e.2 == 0))

/-- The eleven bit times of a character (R188). -/
def characterBits (data : Byte) (marker : Bool) : List Bool :=
  false :: ((List.range 8).map data.getLsbD ++ [marker, true])

/-- The line of a transmitter while it sends a message, bit time by bit time (R188). -/
def Message.lineBits (m : Message) : List Bool :=
  m.characters.flatMap (fun e => characterBits e.1 e.2)

/-- The transmit line of port `p`, `i` bit times after its transmitter began the message it is sending: the message's bits, and 1
while the transmitter is idle (R188, R198, R201) and while the part does not run (R205). -/
def State.lineLevel (s : State) (p : Port) (i : Nat) : Bool :=
  if s.running then
    match (s.port p).sending with
    | none => true
    | some m => m.lineBits.getD i true
  else true

/-- The bit rate of a port (R188). -/
def Rate.bitsPerSecond : Rate → Nat
  | .r19200 => 19200
  | .r57600 => 57600
  | .r115200 => 115200
  | .r230400 => 230400

end Sys2Proof.Machine
end

