-- ==== Sys2Proof/Machine/Operands.lean ====
section
/-! DEFINITION. What an owning block answers, and the bounds of request fields (R9, R10). -/

namespace Sys2Proof.Machine

/-- A block's answer to a request: taken, with the result fields, or refused, with a reason and an optional detail (R190). -/
inductive Reply where
  | ack (fields : List Field)
  | nak (reason : Reason) (detail : Option Nat)
deriving DecidableEq, Repr

/-- The request was taken. -/
def Reply.isAck : Reply → Bool
  | .ack _ => true
  | .nak .. => false

/-- A request refused without a detail: it changes nothing. -/
def refuse (s : State) (r : Reason) : State × Reply := (s, .nak r none)

/-- A request refused with a detail: it changes nothing. -/
def refuseDetail (s : State) (r : Reason) (d : Nat) : State × Reply := (s, .nak r (some d))

/-- The bounds of R9. -/
def okBin (n : Nat) : Bool := decide (n < 4096)
def okCell (n : Nat) : Bool := decide (n < 3840)
def okSegment (n : Nat) : Bool := decide (n < 42)
def okCompartment (n : Nat) : Bool := decide (n < 16)
def okBay (n : Nat) : Bool := decide (n < 2)
def okShutter (n : Nat) : Bool := decide (n < 3)
def okZone (n : Nat) : Bool := decide (n < 4)
def okLevel (n : Nat) : Bool := decide (n < 12)
def okSlot (n : Nat) : Bool := decide (n < 64)

/-- The authority field: 0 to 3 (R10). -/
def okAuthority (n : Nat) : Bool := decide (n < 4)

/-- An optional cell; absent passes (R10). -/
def okOptCell : Option Nat → Bool
  | none => true
  | some n => okCell n

/-- The station of a field: 0 for W, 1 for E (R2, R9). -/
def stationOfCode : Nat → Option Station
  | 0 => some .W
  | 1 => some .E
  | _ => none

/-- The crane of a field: 0 for A, 1 for B (R9). -/
def craneOfCode : Nat → Option Crane
  | 0 => some .A
  | 1 => some .B
  | _ => none

/-- The reasons of UNABLE (R82). -/
inductive UnableReason where
  | emptySource | occupiedDest | blocked | mechanical | fire
deriving DecidableEq, Repr

/-- The reason of UNABLE that a code names (R190). -/
def unableReasonOf : Nat → Option UnableReason
  | 0 => some .emptySource
  | 1 => some .occupiedDest
  | 2 => some .blocked
  | 3 => some .mechanical
  | 4 => some .fire
  | _ => none

/-- The bound of a TAG result: a named bin lies in 0 to 4095 (R157). -/
def okResult : TagResult → Bool
  | .tag b => okBin b
  | .noBin => true
  | .unreadable => true

/-- The keepalive window of a code (R105). -/
def windowOf : Nat → Option Window
  | 0 => some .stopped
  | 1 => some .ms250
  | 2 => some .ms500
  | 3 => some .ms1000
  | 4 => some .ms2000
  | _ => none

/-- A compartment state in a SETCMP list: FREE or OCCUPIED (R35, R190). -/
def setcmpState : Nat → Option Comp
  | 0 => some .free
  | 1 => some .occupied
  | _ => none

/-- The states of a SETCMP list: exactly 16, each FREE or OCCUPIED (R10, R35). -/
def setcmpStates (l : List Nat) : Option (List Comp) :=
  if l.length = 16 then l.mapM setcmpState else none

/-- A zone set: at most four entries, each a zone, none named twice (R10, R190). -/
def okZoneSet (l : List Nat) : Bool := decide (l.length ≤ 4) && l.all okZone && decide l.Nodup

/-- The first entry of `l` that is in `seen` or repeats an earlier one. -/
def firstRepeatFrom (seen : List Nat) : List Nat → Option Nat
  | [] => none
  | a :: rest => if seen.contains a then some a else firstRepeatFrom (a :: seen) rest

/-- The first entry that repeats an earlier one (R128 check 1; log 15). -/
def firstRepeat (l : List Nat) : Option Nat := firstRepeatFrom [] l

end Sys2Proof.Machine
end

