-- ==== Sys2Proof/Machine/Notices.lean ====
section
/-! DEFINITION. Raising notices, latching trips, and starting to send: what many blocks do to the ports and to a crane's trip
record (R102, R198, R199). -/

namespace Sys2Proof.Machine

/-- The capacity of a notice queue (R199). -/
def noticeCapacity : Nat := 16

/-- A notice offered to a port's queue (R199): coalescing, joining or loss. -/
def LinkPort.offer (q : LinkPort) (n : Notice) : LinkPort :=
  if q.queue.any n.sameAs then { q with queue := q.queue.map (fun m => if n.sameAs m then n else m) }
  else if q.queue.length < noticeCapacity then { q with queue := q.queue ++ [n] }
  else { q with flags := { q.flags with noticeLost := true } }

/-- A notice raised to one port. -/
def State.raise (s : State) (p : Port) (n : Notice) : State := s.setPort p ((s.port p).offer n)

/-- A notice raised to several ports, each queue taking it independently (R199). -/
def State.raiseAll (s : State) (ps : List Port) (n : Notice) : State := ps.foldl (fun s p => s.raise p n) s

/-- The transmitter of a port, when idle, chooses what to send: the response, else the head of the notice queue (R198). The
slot or the entry is emptied when sending begins. -/
def LinkPort.pump (q : LinkPort) : LinkPort :=
  match q.sending with
  | some _ => q
  | none =>
    match q.slot with
    | some m => { q with slot := none, sending := some m }
    | none =>
      match q.queue with
      | [] => q
      | n :: rest => { q with queue := rest, sending := some (.notice n) }

/-- The end of the handling of a request, report or event: entries become eligible, and idle transmitters choose (R198;
log 7). -/
def State.pump (s : State) : State :=
  { s with portC := s.portC.pump, portA := s.portA.pump, portB := s.portB.pump, portS := s.portS.pump }

/-- The TRIP notice of crane X as its record stands (R102). -/
def State.tripNotice (s : State) (c : Crane) : Notice :=
  .trip c (s.crane c).tripFirst (s.crane c).tripCauses (s.crane c).ref.isSome

/-- A trip latched for crane X (R102, R103): a cause already in the set changes nothing (log 12); else the record takes the
cause, creep permission falls unless the cause is FIRE, the permit is evaluated again, and TRIP is raised to the crane's own
port and port S. -/
def State.latchTrip (s : State) (c : Crane) (cause : TripCause) : State :=
  if (s.crane c).hasTrip cause then s
  else
    let s' := (s.setCrane c ((s.crane c).withTrip cause)).refreshPermit c
    s'.raiseAll [portOf c, .S] (s'.tripNotice c)

/-- Crane X becomes UNREFERENCED: N_home, index phase and x become absent (R92, R94, R95), and the permit is evaluated again
(R104). -/
def State.unreference (s : State) (c : Crane) : State :=
  (s.setCrane c { s.crane c with ref := none }).refreshPermit c

/-- A trip that also makes the crane UNREFERENCED: ENCODER, SLIP, POSITION-RANGE (R103). The notice carries the reference
state as it stands after the trip. -/
def State.tripUnreference (s : State) (c : Crane) (cause : TripCause) : State :=
  (s.unreference c).latchTrip c cause

end Sys2Proof.Machine
end

