-- ==== Sys2Proof/Machine/Directory.lean ====
section
/-! DEFINITION. The bin directory's operations (chapter 2): compartments, cell and bin transitions, bays, loads and
deliveries. -/

namespace Sys2Proof.Machine

/-! ## Compartments (R21, R22) -/

/-- A bin's compartment. -/
def Bin.comp (b : Bin) (i : Nat) : Comp := b.comps.getD i .occupied

/-- The bin with one compartment changed. -/
def Bin.setComp (b : Bin) (i : Nat) (c : Comp) : Bin := { b with comps := b.comps.set i c }

/-- The bin with several compartments changed to one state. -/
def Bin.setComps (b : Bin) (is : List Nat) (c : Comp) : Bin := is.foldl (fun b i => b.setComp i c) b

/-- The free count: the number of compartments in state FREE (R21). -/
def Bin.freeCount (b : Bin) : Nat := b.comps.countP (fun c => c == .free)

/-- The lowest-numbered FREE compartment (R139). -/
def Bin.lowestFree (b : Bin) : Option Nat := b.comps.findIdx? (fun c => c == .free)

/-- Some compartment is PENDING-PICK. -/
def Bin.hasPending (b : Bin) : Bool := b.comps.any (fun c => c == .pendingPick)

/-- Some compartment is PENDING-PICK or CLAIMED (R35, R144). -/
def Bin.hasOpen (b : Bin) : Bool := b.comps.any (fun c => c == .pendingPick || c == .claimed)

/-- Every PENDING-PICK compartment becomes OCCUPIED (R22). -/
def Bin.revertPicks (b : Bin) : Bin :=
  { b with comps := b.comps.map (fun c => if c = .pendingPick then .occupied else c) }

/-- Every CLAIMED compartment becomes FREE (R22). -/
def Bin.revertClaims (b : Bin) : Bin :=
  { b with comps := b.comps.map (fun c => if c = .claimed then .free else c) }

/-- The bin's location as a place (R18): present in STORED, ON-CRANE and AT-BAY. -/
def BinPlace.location : BinPlace → Option Place
  | .unregistered => none
  | .stored n => some (.cell n)
  | .onCrane c => some (.crane c)
  | .atBay st b => some (.bay st b)
  | .misplaced => none

/-! ## Cells (R23 to R27) -/

/-- A cell that changes state (R25): its unreadable count becomes 0, and its stamp absent when it enters UNVERIFIED. -/
def Cell.toState (c : Cell) (st : CellState) : Cell where
  state := st
  stamp := if st = .unverified then none else c.stamp
  unread := 0

/-- Cell `n` changes state. -/
def State.cellTo (s : State) (n : Nat) (st : CellState) : State := s.setCell n ((s.cell n).toState st)

/-- The bin a cell records, present in OCCUPIED only (R17, R23). -/
def CellState.bin : CellState → Option Nat
  | .occupied b => some b
  | .unverified => none
  | .empty => none
  | .reserved _ => none
  | .suspect => none
  | .blocked => none

/-- The order a cell is reserved for (R23). -/
def CellState.destOf : CellState → Option Handle
  | .reserved h => some h
  | .unverified => none
  | .empty => none
  | .occupied _ => none
  | .suspect => none
  | .blocked => none

/-- The bin, if any, becomes MISPLACED with its location absent; it keeps its other fields (R19, R26, R27). -/
def State.misplace (s : State) : Option Nat → State
  | none => s
  | some b => s.setBin b { s.bin b with place := .misplaced }

/-- A cell enters SUSPECT (R26): a bin recorded in it becomes MISPLACED, and SUSP is raised to port S with that bin. A cell
already SUSPECT stays so without a notice. -/
def State.enterSuspect (s : State) (n : Nat) : State :=
  if (s.cell n).state = .suspect then s
  else ((s.misplace (s.cell n).state.bin).cellTo n .suspect).raise .S (.susp n (s.cell n).state.bin)

/-- A cell enters BLOCKED (R27): a bin recorded in it becomes MISPLACED; no notice. -/
def State.enterBlocked (s : State) (n : Nat) : State :=
  if (s.cell n).state = .blocked then s
  else (s.misplace (s.cell n).state.bin).cellTo n .blocked

/-- An EMPTY cell becomes RESERVED for an order (R24, R50). -/
def State.reserveCell (s : State) (n : Nat) (h : Handle) : State := s.cellTo n (.reserved h)

/-- A reservation is released if the cell is RESERVED for the handle (R24, R54, R55). -/
def State.releaseCell (s : State) (n : Nat) (h : Handle) : State :=
  if (s.cell n).state = .reserved h then s.cellTo n .empty else s

/-! ## Bays (R28, R29) -/

/-- A bay becomes EMPTY: it loses its bin, its inbound handle and both flags (R28). -/
def State.emptyBay (s : State) (st : Station) (b : Nat) : State := s.setBay st b .cold

/-- A bay changes state and keeps its flags (R28). -/
def State.bayTo (s : State) (st : Station) (b : Nat) (x : BayState) : State :=
  s.setBay st b { s.bay st b with state := x }

/-- The bay's keep flag set or cleared (R29). -/
def State.setKeep (s : State) (st : Station) (b : Nat) (v : Bool) : State :=
  s.setBay st b { s.bay st b with keep := v }

/-- The bay's stow-wanted flag set or cleared (R29). -/
def State.setStowWanted (s : State) (st : Station) (b : Nat) (v : Bool) : State :=
  s.setBay st b { s.bay st b with stowWanted := v }

/-! ## The moves of R30 -/

/-- The crane's carried bin (R17). -/
def State.setCarried (s : State) (c : Crane) (b : Option Nat) : State :=
  s.setCrane c { s.crane c with carried := b }

/-- The bin's new place. -/
def State.binTo (s : State) (b : Nat) (x : BinPlace) : State := s.setBin b { s.bin b with place := x }

/-- Load from a cell (R30): the cell becomes EMPTY with its stamp kept, the bin ON-CRANE. -/
def State.loadFromCell (s : State) (c : Crane) (n b : Nat) : State :=
  ((s.cellTo n .empty).binTo b (.onCrane c)).setCarried c (some b)

/-- Load from a bay (R30): the bay becomes EMPTY, the bin ON-CRANE, and its claims and pending picks revert (R22: the bin's
live order is a STOW or MOVE). -/
def State.loadFromBay (s : State) (c : Crane) (st : Station) (bay b : Nat) : State :=
  let s' := (s.emptyBay st bay).binTo b (.onCrane c)
  (s'.setBin b (s'.bin b).revertClaims.revertPicks).setCarried c (some b)

/-- Delivery to a bay (R30), with the keep flag of R29 and R80. -/
def State.deliverToBay (s : State) (c : Crane) (st : Station) (bay b : Nat) (keep : Bool) : State :=
  ((s.setBay st bay { s.bay st bay with state := .occupied b, keep := keep }).binTo b (.atBay st bay)).setCarried c none

/-- Delivery to a cell (R30). -/
def State.deliverToCell (s : State) (c : Crane) (n b : Nat) : State :=
  ((s.cellTo n (.occupied b)).binTo b (.stored n)).setCarried c none

end Sys2Proof.Machine
end

