-- ==== Sys2Proof/Machine/Scans.lean ====
section
/-! DEFINITION. The allocation scans (section 1.8). -/

namespace Sys2Proof.Machine

/-- The zone condition of every scan (R12). -/
def State.zoneOk (s : State) (n : Nat) : Bool := s.inService (zoneOfCell n)

/-- The station form of the shutter condition (R12). -/
def State.stationOk (s : State) (st : Station) (n : Nat) : Bool :=
  !s.beyond (stationSegment st) (cellSegment n)

/-- The crane form of the shutter condition (R12). -/
def State.craneOk (s : State) (c : Crane) (n : Nat) : Bool :=
  !s.beyond (s.currentSegment c) (cellSegment n)

/-- A station's scan order: from W ascending from cell 0, from E descending from cell 3839 (R13, R15). -/
def stationScan (st : Station) (p : Nat → Bool) : Option Nat :=
  match st with
  | .W => findUp p 0 cellCount
  | .E => findDown p (cellCount - 1) cellCount

/-- The conditions of the destination scan (R13). -/
def State.destAccepts (s : State) (st : Station) (n : Nat) : Bool :=
  (s.cell n).state == .empty && s.zoneOk n && s.stationOk st n

/-- The destination scan for a station (R13). -/
def State.destScan (s : State) (st : Station) : Option Nat := stationScan st (s.destAccepts st)

/-- The conditions of the toward-home scan (R14). -/
def State.homeAccepts (s : State) (c : Crane) (n : Nat) : Bool :=
  (s.cell n).state == .empty && s.zoneOk n && s.craneOk c n && !s.holds (otherCrane c) (cellSegment n)

/-- The toward-home scan for a crane (R14). For crane A, phase 1 takes the cells of segments up to its own, downward, and
phase 2 the others upward; for crane B the mirror. -/
def State.homeScan (s : State) (c : Crane) : Option Nat :=
  let p := s.homeAccepts c
  match c with
  | .A =>
    let n := min (96 * s.currentSegment .A) cellCount
    (findDown p (n - 1) n).orElse (fun _ => findUp p n (cellCount - n))
  | .B =>
    let n := min (96 * (s.currentSegment .B - 1)) cellCount
    (findUp p n (cellCount - n)).orElse (fun _ => findDown p (n - 1) n)

/-- The conditions of the return-bin scan (R15). -/
def State.returnAccepts (s : State) (st : Station) (n : Nat) : Bool :=
  match (s.cell n).state with
  | .occupied b =>
    decide (s.settings.leastFree ≤ (s.bin b).freeCount) && !(s.bin b).quarantine && (s.bin b).order.isNone &&
      s.zoneOk n && s.stationOk st n
  | .unverified => false
  | .empty => false
  | .reserved _ => false
  | .suspect => false
  | .blocked => false

/-- The return-bin scan for a station (R15). -/
def State.returnScan (s : State) (st : Station) : Option Nat := stationScan st (s.returnAccepts st)

end Sys2Proof.Machine
end

