-- ==== Sys2Proof/Machine/Orders.lean ====
section
/-! DEFINITION. The order table's operations (chapter 3): creation, the progress timer, re-destination, the end of an order. -/

namespace Sys2Proof.Machine

/-- Order p is older than order q (R45). -/
def Order.older (p q : Order) : Bool :=
  decide (1 ≤ (q.seq - p.seq).toNat ∧ (q.seq - p.seq).toNat ≤ 2147483647)

/-- The order is a STOW or MOVE: its destination is a cell that it reserves (R47, R50). -/
def OrderKind.stows : OrderKind → Bool
  | .stow => true
  | .move => true
  | .fetch => false
  | .verify => false

/-- The cell of a place. -/
def Place.cellOf : Place → Option Nat
  | .cell n => some n
  | .bay _ _ => none
  | .crane _ => none
  | .station _ => none

/-- The destination cell of an order, where it has one. -/
def Order.destCell (o : Order) : Option Nat := o.dest.bind Place.cellOf

/-- The progress timeout in milliseconds (R56). -/
def State.progressMs (s : State) : Nat := s.settings.progressTimeout * 1000

/-! ## Creation (R48 to R51) -/

/-- The effective authority of an order created by a request (R48). -/
def effectiveAuthority (asked : Nat) (p : Port) : Nat := max asked (portLevel p)

/-- The common creation checks (R49). -/
def State.creationRefusal (s : State) (bin : Option Nat) (kind : OrderKind) : Option Reason :=
  if bin.any (fun b => (s.bin b).order.isSome) then some .binBusy
  else if s.sched.wing = .held ∧ kind ≠ .verify then some .wingHeld
  else if s.freeSlot.isNone then some .tableFull
  else none

/-- The fields of a new order that its creating rule gives (R43, R44); the others stand as R51 gives. -/
def newOrder (kind : OrderKind) (purpose : Purpose) (bin : Option Nat) (source : Place) (dest : Option Place) (crane : Crane)
    (issuer : Issuer) (authority : Nat) (loan : Option (BitVec 32)) (level : Nat) : Order where
  kind := kind
  purpose := purpose
  bin := bin
  source := source
  dest := dest
  destBay := none
  crane := crane
  issuer := issuer
  authority := authority
  seq := 0
  bypass := 0
  loan := loan
  level := level
  state := .queued
  stalled := false
  timer := none

/-- The handle a new order takes in slot `i` (R42). -/
def State.newHandle (s : State) (i : Nat) : Handle := ⟨i, ((s.slot i).gen + 1) % 256⟩

/-- The new order's bin has its live order handle set (R51). -/
def State.bindBin (s : State) (bin : Option Nat) (h : Handle) : State :=
  match bin with
  | none => s
  | some b => s.setBin b { s.bin b with order := some h }

/-- The new order's destination cell is reserved, for a STOW or MOVE (R50, R51). -/
def State.reserveFor (s : State) (o : Order) (h : Handle) : State :=
  if o.kind.stows then
    match o.destCell with
    | some n => s.reserveCell n h
    | none => s
  else s

/-- A STOW from a bay clears the bay's stow-wanted flag (R51). -/
def State.clearWanted (s : State) (o : Order) : State :=
  match o.kind, o.source with
  | .stow, .bay st b => s.setStowWanted st b false
  | _, _ => s

/-- An orphan stow becomes its crane's active order and clears the orphan flag (R51, R62). -/
def State.takeOrphan (s : State) (o : Order) (h : Handle) : State :=
  match o.source with
  | .crane c => s.setCrane c { s.crane c with active := some h, orphan := false }
  | .cell _ => s
  | .bay _ _ => s
  | .station _ => s

/-- An order fills slot `i` (R42, R45, R51). -/
def State.fillSlot (s : State) (i : Nat) (o : Order) : State :=
  let h := s.newHandle i
  let s1 := (s.setSlot i ⟨h.gen, some { o with seq := s.counter }⟩).setCounter (s.counter + 1)
  (((s1.bindBin o.bin h).reserveFor o h).clearWanted o).takeOrphan o h

/-- Creation in the lowest free slot, after the creation checks have passed (R51). -/
def State.create (s : State) (o : Order) : Option (State × Handle) :=
  match s.freeSlot with
  | none => none
  | some i => some (s.fillSlot i o, s.newHandle i)

/-! ## Progress timer (R56) -/

/-- The progress timer of the order in slot `i` is started with the timeout, which clears its stalled flag (R56). -/
def State.startTimer (s : State) (i : Nat) : State :=
  match (s.slot i).order with
  | none => s
  | some o => s.setOrder i (some { o with timer := some s.progressMs, stalled := false })

/-! ## Re-destination (R54) -/

/-- Step 1 of R54: the present destination's reservation is released. -/
def State.releaseDest (s : State) (o : Order) (h : Handle) : State :=
  match o.destCell with
  | some n => s.releaseCell n h
  | none => s

/-- Step 2 of R54: the scan for the order. -/
def State.redestScan (s : State) (o : Order) : Option Nat :=
  if o.state = .loaded then s.homeScan o.crane else s.destScan (stationOf o.crane)

/-- The level hint of a re-destined order (R54 step 3). -/
def Order.redestLevel (o : Order) (n : Nat) : Nat :=
  if o.state = .loaded ∨ o.source.cellOf = none then cellLevel n else o.level

/-- Re-destination of the order in slot `i` (R54). -/
def State.redestine (s : State) (i : Nat) : State :=
  match (s.slot i).order with
  | none => s
  | some o =>
    let h := s.handleAt i
    let s1 := s.releaseDest o h
    match s1.redestScan o with
    | some n => (s1.reserveCell n h).setOrder i (some { o with dest := some (.cell n), level := o.redestLevel n })
    | none => s1.setOrder i (some { o with dest := none })

/-! ## The end of an order (R55) -/

/-- The bin's live order handle becomes absent (R20, R55). -/
def State.unbindBin (s : State) (bin : Option Nat) : State :=
  match bin with
  | none => s
  | some b => s.setBin b { s.bin b with order := none }

/-- A reservation still held is released (R55). -/
def State.endReservation (s : State) (o : Order) (h : Handle) : State :=
  if o.kind.stows then s.releaseDest o h else s

/-- The bays of an order that ends before delivery or load (R28, R55): a FETCH's INBOUND bay goes to EMPTY, the OUTBOUND bay
of a STOW or MOVE goes to OCCUPIED. -/
def State.endBay (s : State) (o : Order) (h : Handle) : State :=
  match o.kind with
  | .fetch =>
    match o.dest, o.destBay with
    | some (.station st), some b => if (s.bay st b).state = .inbound h then s.emptyBay st b else s
    | _, _ => s
  | .stow | .move =>
    match o.source, o.bin with
    | .bay st b, some n => if (s.bay st b).state = .outbound n then s.bayTo st b (.occupied n) else s
    | _, _ => s
  | .verify => s

/-- The bin is AT-BAY. -/
def BinPlace.isAtBay : BinPlace → Bool
  | .atBay _ _ => true
  | .unregistered => false
  | .stored _ => false
  | .onCrane _ => false
  | .misplaced => false

/-- When a FETCH ends, the pending picks of its bin revert unless the bin is AT-BAY (R22). -/
def State.endPicks (s : State) (o : Order) : State :=
  match o.kind, o.bin with
  | .fetch, some b => if (s.bin b).place.isAtBay then s else s.setBin b (s.bin b).revertPicks
  | _, _ => s

/-- The crane record of an active order that ends (R55, R61). -/
def State.endCrane (s : State) (o : Order) (h : Handle) (f : FinalState) : State :=
  let r := s.crane o.crane
  if r.active = some h then
    s.setCrane o.crane
      { r with
        active := none
        lastCompleted := some h
        orphan := if o.state = .loaded ∧ f ≠ .complete then true else r.orphan }
  else s

/-- The ENDED notice, for a FETCH issued by port C (R57). -/
def State.endNotice (s : State) (o : Order) (h : Handle) (outcome : Option EndOutcome) : State :=
  match outcome with
  | none => s
  | some x => if o.issuer = .C ∧ o.kind = .fetch then s.raise .C (.ended h o.loan x) else s

/-- The order in slot `i` reaches a final state (R55), with the outcome an ENDED notice carries where R57 requires one. -/
def State.endOrder (s : State) (i : Nat) (f : FinalState) (outcome : Option EndOutcome) : State :=
  match (s.slot i).order with
  | none => s
  | some o =>
    let h := s.handleAt i
    let s1 := ((s.unbindBin o.bin).endReservation o h).endBay o h
    let s2 := (s1.endPicks o).endCrane o h f
    (s2.setOrder i none).endNotice o h outcome

/-- The slot of a bin's live order, through its live order handle (R20, R42). -/
def State.slotOfBin (s : State) (b : Nat) : Option Nat :=
  match (s.bin b).order with
  | none => none
  | some h => if (s.orderOf h).isSome then some h.slot else none

/-- A bin made MISPLACED fails its live order in QUEUED or DISPATCHED, but for the order in slot `except` (R85, R160). -/
def State.failMisplaced (s : State) (except : Option Nat) (b : Nat) : State :=
  match s.slotOfBin b with
  | none => s
  | some i =>
    if some i = except then s
    else
      match (s.slot i).order with
      | none => s
      | some o => if o.state = .loaded then s else s.endOrder i .failed (some .failed)

end Sys2Proof.Machine
end

