-- ==== Sys2Proof/Machine/Eligibility.lean ====
section
/-! DEFINITION. Eligibility of queued orders and the waiting cranes (R68, R69, R76). -/

namespace Sys2Proof.Machine

/-- The cells an order visits (R68). -/
def Order.cells (o : Order) : List Nat :=
  match o.kind with
  | .fetch => o.source.cellOf.toList
  | .stow => o.destCell.toList
  | .move => o.source.cellOf.toList ++ o.destCell.toList
  | .verify => o.source.cellOf.toList

/-- The station an order visits (R68): the destination of a FETCH, the source station of a STOW or MOVE from a bay. -/
def Order.station (o : Order) : Option Station :=
  match o.kind with
  | .fetch =>
    match o.dest with
    | some (.station st) => some st
    | _ => none
  | .stow | .move =>
    match o.source with
    | .bay st _ => some st
    | _ => none
  | .verify => none

/-- The lowest-numbered EMPTY bay of a station (R28, R74). -/
def State.emptyBayOf (s : State) (st : Station) : Option Nat :=
  [0, 1].find? (fun b => (s.bay st b).state == .empty)

/-- The segments of an order's places and of crane X (R69). -/
def State.routePoints (s : State) (x : Crane) (o : Order) : List Nat :=
  s.currentSegment x :: (o.cells.map cellSegment ++ o.station.toList.map stationSegment)

/-- The lowest segment of an order's route (R69). -/
def State.routeLo (s : State) (x : Crane) (o : Order) : Nat :=
  (s.routePoints x o).foldl min (s.currentSegment x)

/-- The highest segment of an order's route (R69). -/
def State.routeHi (s : State) (x : Crane) (o : Order) : Nat :=
  (s.routePoints x o).foldl max (s.currentSegment x)

/-- Conditions 6 and 7 of R68: no segment of the route is held by the other crane, and the route spans no shutter other than
OPEN. -/
def State.routeFree (s : State) (x : Crane) (o : Order) : Bool :=
  (upTo (s.routeLo x o) (s.routeHi x o)).all (fun n => !s.holds (otherCrane x) n) &&
    shutterNumbers.all (fun k => s.shutterOpen k || !spans k (s.routeLo x o) (s.routeHi x o))

/-- Condition 8 of R68. -/
def State.wingAllows (s : State) (o : Order) : Bool :=
  match s.sched.wing with
  | .normal => true
  | .held => o.kind == .verify && o.cells.all (fun n => s.sched.verifySet.contains (zoneOfCell n))

/-- Conditions 3, 6, 7 and 8 of R68, which R72 tests for a VERIFY not yet created. -/
def State.reachable (s : State) (x : Crane) (o : Order) : Bool :=
  o.cells.all s.zoneOk && s.routeFree x o && s.wingAllows o

/-- An order is eligible for crane X (R68). -/
def State.eligible (s : State) (x : Crane) (o : Order) : Bool :=
  o.state == .queued && o.crane == x &&
    (!o.kind.stows || o.dest.isSome) &&
    o.station.all (fun st => s.inService (zoneOfStation st)) &&
    (o.kind != .fetch || o.station.any (fun st => (s.emptyBayOf st).isSome)) &&
    s.reachable x o

/-- The orders eligible for crane X, with their slots, in ascending slot number. -/
def State.eligibleOrders (s : State) (x : Crane) : List (Nat × Order) :=
  s.liveOrders.filter (fun e => s.eligible x e.2)

/-- The number of QUEUED orders assigned to crane X (R73). -/
def State.queuedCount (s : State) (x : Crane) : Nat :=
  s.liveOrders.countP (fun e => e.2.state == .queued && e.2.crane == x)

/-! ## Waiting cranes (R76) -/

/-- Between `s` and `t` a QUEUED order assigned to X was created, or one was re-destined. -/
def queueChanged (x : Crane) (s t : State) : Bool :=
  t.liveOrders.any (fun e =>
    e.2.state == .queued && e.2.crane == x &&
      ((s.slot e.1).gen != (t.slot e.1).gen || (s.slot e.1).order.map (fun o => o.dest) != some e.2.dest))

/-- Between `s` and `t` something changed that R76 names: an order for X, a zone's state, a segment's holder, a shutter's
state, the state of a bay of X's station, or the wing state. -/
def waitTrigger (x : Crane) (s t : State) : Bool :=
  queueChanged x s t ||
    zoneNumbers.any (fun z => (s.zone z).state != (t.zone z).state) ||
    segmentNumbers.any (fun n => (s.seg n).holder != (t.seg n).holder) ||
    shutterNumbers.any (fun k => (s.shutter k).state != (t.shutter k).state) ||
    [0, 1].any (fun b => (s.bay (stationOf x) b).state.code != (t.bay (stationOf x) b).state.code) ||
    s.sched.wing != t.sched.wing

/-- Crane X is waiting for work: its waiting flag is set, its orphan flag clear, and it has no active order (R76). -/
def CraneRec.isWaiting (r : CraneRec) : Bool := r.waiting && !r.orphan && r.active.isNone

/-- The dispatcher evaluates crane X (R76): WAIT is raised when an order is eligible or a credit was added, and the waiting
flag falls. -/
def State.evalWaiting (s : State) (x : Crane) (credit : Bool) : State :=
  let n := (s.eligibleOrders x).length
  if (s.crane x).isWaiting && (credit || decide (0 < n)) then
    (s.setCrane x { s.crane x with waiting := false }).raise (portOf x) (.wait x n)
  else s

/-- The evaluation of both waiting cranes at the end of an event that took `s` to `t`, with the credits it added. `always`
asks for it whatever changed (R161; log 14). -/
def evalCranes (s t : State) (always creditA creditB : Bool) : State :=
  let one (u : State) (x : Crane) (credit : Bool) : State :=
    if always || credit || waitTrigger x s t then u.evalWaiting x credit else u
  one (one t .A creditA) .B creditB

/-- The end of an event that took `s` to `t` (R76, R198). -/
def finish (s t : State) : State := (evalCranes s t false false false).pump

end Sys2Proof.Machine
end

