-- ==== Sys2Proof/Machine/Link.lean ====
section
/-! DEFINITION. The link port's receiver, assembler and request server (chapter 10). -/

namespace Sys2Proof.Machine

/-! ## The receiver (R192 to R194) -/

/-- The value held by at least two of three samples (R192). -/
def majority (t : Samples) : Bool := (t.a && t.b) || (t.a && t.c) || (t.b && t.c)

/-- The three samples do not all agree (R192). -/
def disagree (t : Samples) : Bool := !(t.a == t.b && t.b == t.c)

/-- The start bit is confirmed: at least two of samples 5, 7 and 9 are 0 (R192). -/
def frameConfirmed (f : RxFrame) : Bool := !majority f.start

/-- The samples of the eight data bits, bit 0 first. -/
def frameDataSamples (f : RxFrame) : List Samples := [f.d0, f.d1, f.d2, f.d3, f.d4, f.d5, f.d6, f.d7]

/-- The data byte (R188: least significant bit first). -/
def frameData (f : RxFrame) : Byte := BitVec.ofBoolListLE ((frameDataSamples f).map majority)

/-- The samples of one of the ten bits after the start bit do not all agree (R192). -/
def frameNoisy (f : RxFrame) : Bool :=
  (frameDataSamples f ++ [f.marker, f.stop]).any disagree

/-- Every data bit, the marker and the stop bit are 0 (R193). -/
def frameIsBreak (f : RxFrame) : Bool :=
  (frameDataSamples f ++ [f.marker, f.stop]).all (fun t => !majority t)

/-- The frame of a character received without noise: all samples of each bit agree. -/
def cleanFrame (data : Byte) (marker stop : Bool) : RxFrame :=
  let t (b : Bool) : Samples := ⟨b, b, b⟩
  { start := t false
    d0 := t (data.getLsbD 0), d1 := t (data.getLsbD 1), d2 := t (data.getLsbD 2), d3 := t (data.getLsbD 3)
    d4 := t (data.getLsbD 4), d5 := t (data.getLsbD 5), d6 := t (data.getLsbD 6), d7 := t (data.getLsbD 7)
    marker := t marker
    stop := t stop }

/-- The capacity of the receive FIFO (R194). -/
def fifoCapacity : Nat := 64

/-- A character arrives at the FIFO (R194): it enters with any pending loss mark, or is lost with OVERRUN. -/
def LinkPort.enter (q : LinkPort) (data : Byte) (marker damage : Bool) : LinkPort :=
  if q.fifo.length < fifoCapacity then
    { q with fifo := q.fifo ++ [⟨data, marker, damage, q.pendingLoss⟩], pendingLoss := false }
  else { q with pendingLoss := true, flags := { q.flags with overrun := true } }

/-! ## The assembler (R195, R196) -/

/-- The largest length of a message the part receives (R189). -/
def maxRxLength : Nat := 48

/-- The length a partial message announces, once its length character is taken. -/
def Partial.length (m : Partial) : Nat := (m.bytes.getD 1 0).toNat

/-- The character at the head of the FIFO is an over-long length character of the partial message (R195). -/
def LinkPort.lengthEnds (q : LinkPort) : Bool :=
  match q.partialMsg, q.fifo with
  | some m, c :: _ => !c.marker && m.bytes.length == 1 && decide (maxRxLength < c.data.toNat)
  | _, _ => false

/-- The character at the head of the FIFO is the second check character of the partial message (R196). -/
def LinkPort.checkEnds (q : LinkPort) : Bool :=
  match q.partialMsg, q.fifo with
  | some m, c :: _ => !c.marker && decide (2 ≤ m.bytes.length) && m.bytes.length == m.length + 3
  | _, _ => false

/-- A character taken from the FIFO that ends no message (R195). -/
def LinkPort.takeChar (q : LinkPort) (c : RxChar) : LinkPort :=
  match q.partialMsg, c.marker with
  | none, false => q
  | none, true => { q with partialMsg := some ⟨[c.data], c.damage⟩ }
  | some m, false => { q with partialMsg := some ⟨m.bytes ++ [c.data], m.damaged || c.damage || c.loss⟩ }
  | some _, true =>
    { q with partialMsg := some ⟨[c.data], c.damage⟩, flags := { q.flags with damaged := true } }

/-- The assembler takes characters until it holds an item, the FIFO is empty, or the next character ends a message: that
character is taken by MESSAGE_COMPLETE or OVERLENGTH_MESSAGE (log 6). -/
def assembleSteps : Nat → LinkPort → LinkPort
  | 0, q => q
  | n + 1, q =>
    if q.item.isSome || q.lengthEnds || q.checkEnds then q
    else
      match q.fifo with
      | [] => q
      | c :: rest => assembleSteps n (({ q with fifo := rest } : LinkPort).takeChar c)

/-- The assembler of a port takes what it can. -/
def LinkPort.assemble (q : LinkPort) : LinkPort := assembleSteps q.fifo.length q

/-- The finished item of a complete message (R196): LINE, CHECK, or the good message. -/
def finishedItem (bytes : List Byte) (damaged : Bool) : Item :=
  let code := bytes.getD 0 0
  let n := bytes.length - 2
  if damaged then .refused code .line
  else if numBytes 2 (crc16 (bytes.take n)).toNat = bytes.drop n then .message code ((bytes.take n).drop 2)
  else .refused code .check

/-- The message is complete with its second check character `c` (R195, R196). -/
def LinkPort.complete (q : LinkPort) (m : Partial) (c : RxChar) (rest : List RxChar) : LinkPort :=
  let damaged := m.damaged || c.damage || c.loss
  { q with
    fifo := rest
    partialMsg := none
    item := some (finishedItem (m.bytes ++ [c.data]) damaged)
    flags := { q.flags with damaged := q.flags.damaged || damaged } }

/-- A break is received (R193): the port's part of it. -/
def LinkPort.takeBreak (q : LinkPort) : LinkPort :=
  { q with
    flags := { q.flags with brk := true }
    fifo := []
    pendingLoss := false
    partialMsg := none
    afterBreak := true }

/-! ## The request server (R197) -/

/-- The server takes the finished item, and the assembler goes on with the FIFO (R196, R197). It goes on at the taking, before the
owning block acts: a DAMAGED set then is reported and cleared by a STAT that this taking serves (DESIGN CHOICE, log 6). -/
def LinkPort.takeItem (q : LinkPort) : LinkPort := ({ q with item := none } : LinkPort).assemble

/-- The server of a port can take an item: the response slot is empty, and it was not stopped by RSTRT (R197, R205). -/
def LinkPort.ready (q : LinkPort) : Bool := q.slot.isNone && !q.stopped

/-- The response is placed in the port's slot (R197). -/
def State.respond (s : State) (p : Port) (m : Message) : State := s.setPort p { s.port p with slot := some m }

/-- The response to a request kind. -/
def Reply.message (k : Kind) : Reply → Message
  | .ack fields => .ack k fields
  | .nak r d => .nak (kindCode k) r d

/-- Steps 3 to 5 of R197: the port refuses the kind or the body, or the owning block answers. -/
def answer {α : Type} (p : Port) (k : Kind) (args : Except Reason α) (owner : α → State → State × Reply) (s : State) :
    State × Reply :=
  match portRefusal p k with
  | some r => refuse s r
  | none =>
    match args with
    | .error r => refuse s r
    | .ok a => owner a s

/-- The end of serving: the response is placed, waiting cranes are evaluated, transmitters choose. `always` asks for the
evaluation of waiting cranes when the request was taken (log 14). ASSIGN raises no notice (R31; WAIT is not among its steps in
95_what_each_step_holds): it evaluates no waiting crane. -/
def conclude (s : State) (p : Port) (k : Kind) (always : Bool) (r : State × Reply) : State :=
  let t := r.1.respond p (r.2.message k)
  (if k = .assign then t else evalCranes s t (always && r.2.isAck) false false).pump

/-- The state after the request server of port `p` has served a request of kind `k` (R197; log 1). A finished item of that kind is taken and its
body read, the assembler having gone on with the FIFO first (log 6); with no finished item, the command's own operands are served. While the slot holds a response, or the assembler
holds another item, or the part does not run, the server takes nothing and nothing changes. -/
def served {α : Type} (p : Port) (k : Kind) (read : List Byte → Except Reason α) (args : α)
    (owner : α → State → State × Reply) (always : Bool) (s : State) : State :=
  if s.running && (s.port p).ready then
    match (s.port p).item with
    | none => conclude s p k always (answer p k (.ok args) owner s)
    | some (.message code body) =>
      if code = kindCode k then
        conclude s p k always (answer p k (read body) owner (s.setPort p (s.port p).takeItem))
      else s
    | some (.refused _ _) => s
  else s

/-- A request of kind `k` served on port `p`. -/
def serve {α : Type} (p : Port) (k : Kind) (read : List Byte → Except Reason α) (args : α)
    (owner : α → State → State × Reply) (always : Bool) (s : State) : Result :=
  .next (served p k read args owner always s)

end Sys2Proof.Machine
end

