-- ==== Sys2Proof/Machine/Rail.lean ====
section
/-! DEFINITION. Rail segment reservations (chapter 6): RSV, REL, FREL, sealing and unsealing. -/

namespace Sys2Proof.Machine

/-- A segment granted to crane X, its seal left as it stands (R116). -/
def State.grantSeg (s : State) (c : Crane) (n : Nat) : State :=
  if (s.seg n).holder = none then s.setSeg n { s.seg n with holder := some c } else s

/-- The seal of a released segment: SEAL-PENDING becomes SEALED (R119). -/
def releasedSeal : Seal → Seal
  | .sealPending => .sealed
  | .open => .open
  | .sealed => .sealed

/-- A segment released (R119). -/
def State.releaseSeg (s : State) (n : Nat) : State :=
  s.setSeg n { holder := none, sealState := releasedSeal (s.seg n).sealState }

/-- The segments `lo` to `hi` granted to crane X, and its permit evaluated again (R116). -/
def State.grant (s : State) (c : Crane) (lo hi : Nat) : State :=
  ((upTo lo hi).foldl (fun s n => s.grantSeg c n) s).refreshPermit c

/-- The segments `lo` to `hi` of crane X released, and its permit evaluated again (R119). -/
def State.release (s : State) (c : Crane) (lo hi : Nat) : State :=
  ((upTo lo hi).foldl (fun s n => s.releaseSeg n) s).refreshPermit c

/-! ## RSV (R115, R116) -/

/-- Check 2 of R115: the lowest segment held by the other crane. -/
def State.rsvConflict (s : State) (c : Crane) (lo hi : Nat) : Option Nat :=
  (upTo lo hi).find? (fun n => s.holds (otherCrane c) n)

/-- Check 3 of R115: the lowest segment not held by X whose seal is not OPEN. -/
def State.rsvSealed (s : State) (c : Crane) (lo hi : Nat) : Option Nat :=
  (upTo lo hi).find? (fun n => !s.holds c n && (s.seg n).sealState != .open)

/-- Check 4 of R115: the union with X's holding is one run. -/
def State.rsvOneRun (s : State) (c : Crane) (lo hi : Nat) : Bool :=
  match s.holdingEnds c with
  | none => true
  | some (a, b) => decide (lo ≤ b + 1 ∧ a ≤ hi + 1)

/-- The first and last segment of the union of `lo` to `hi` with X's holding. -/
def State.rsvUnion (s : State) (c : Crane) (lo hi : Nat) : Nat × Nat :=
  match s.holdingEnds c with
  | none => (lo, hi)
  | some (a, b) => (min a lo, max b hi)

/-- Check 5 of R115, crane order: the segment of the other crane's holding that the union fails against. -/
def State.rsvOrder (s : State) (c : Crane) (first last : Nat) : Option Nat :=
  match s.holdingEnds (otherCrane c) with
  | none => none
  | some (a, b) =>
    match c with
    | .A => if last < a then none else some a
    | .B => if b < first then none else some b

/-- Check 6 of R115: the lowest-numbered shutter other than OPEN both of whose boundary segments the union includes. -/
def State.rsvBarrier (s : State) (first last : Nat) : Option Nat :=
  shutterNumbers.find? (fun k => !s.shutterOpen k && spans k first last)

/-- RSV for crane X (R115, R116), its segment fields in bounds. -/
def State.rsv (s : State) (c : Crane) (lo hi : Nat) : State × Reply :=
  if hi < lo then refuse s .range
  else
    match s.rsvConflict c lo hi with
    | some d => refuseDetail s .conflict d
    | none =>
      match s.rsvSealed c lo hi with
      | some d => refuseDetail s .zoneClosed d
      | none =>
        if !s.rsvOneRun c lo hi then refuse s .range
        else
          match s.rsvOrder c (s.rsvUnion c lo hi).1 (s.rsvUnion c lo hi).2 with
          | some d => refuseDetail s .conflict d
          | none =>
            match s.rsvBarrier (s.rsvUnion c lo hi).1 (s.rsvUnion c lo hi).2 with
            | some d => refuseDetail s .barrier d
            | none =>
              let t := s.grant c lo hi
              (t, .ack (heldFields (t.holdingEnds c)))

/-- A request of a crane port, for the crane of the port. A port with no crane has been refused before (R197). -/
def onCrane (p : Port) (s : State) (f : Crane → State × Reply) : State × Reply :=
  match craneOfPort p with
  | some c => f c
  | none => refuse s .role

def ownRsv (p : Port) (a : Nat × Nat) (s : State) : State × Reply :=
  if okSegment a.1 && okSegment a.2 then onCrane p s (fun c => s.rsv c a.1 a.2) else refuse s .range

def execRsv (p : Port) (lo hi : Nat) (s : State) : Result :=
  serve p .rsv (bodyNum2 1 1) (lo, hi) (ownRsv p) false s

/-! ## REL (R118, R119) and FREL (R122) -/

/-- The lowest segment not held by X. -/
def State.notOwned (s : State) (c : Crane) (lo hi : Nat) : Option Nat :=
  (upTo lo hi).find? (fun n => !s.holds c n)

/-- The holding left after the release is one run or empty: `lo` is its first segment or `hi` its last (R118 check 3). -/
def State.leavesRun (s : State) (c : Crane) (lo hi : Nat) : Bool :=
  match s.holdingEnds c with
  | none => false
  | some (a, b) => decide (lo = a ∨ hi = b)

/-- The lowest segment between X's last touched segments (R118 check 4). -/
def State.touchedIn (s : State) (c : Crane) (lo hi : Nat) : Option Nat :=
  (upTo lo hi).find? (fun n => decide ((s.crane c).touchFirst ≤ n ∧ n ≤ (s.crane c).touchLast))

/-- Check 5 of R118: X is UNREFERENCED, and the release takes its end segment while leaving it others. -/
def State.strandsEnd (s : State) (c : Crane) (lo hi : Nat) : Bool :=
  (s.crane c).ref.isNone && decide (lo ≤ endSegment c ∧ endSegment c ≤ hi) &&
    (s.holding c).any (fun n => decide (n < lo ∨ hi < n))

/-- REL for crane X (R118, R119), its segment fields in bounds. -/
def State.rel (s : State) (c : Crane) (lo hi : Nat) : State × Reply :=
  if hi < lo then refuse s .range
  else
    match s.notOwned c lo hi with
    | some d => refuseDetail s .notOwner d
    | none =>
      if !s.leavesRun c lo hi then refuse s .range
      else
        match s.touchedIn c lo hi with
        | some d => refuseDetail s .conflict d
        | none =>
          if s.strandsEnd c lo hi then refuseDetail s .range (endSegment c)
          else
            let t := s.release c lo hi
            (t, .ack (holdingFields (t.holdingEnds c)))

def ownRel (p : Port) (a : Nat × Nat) (s : State) : State × Reply :=
  if okSegment a.1 && okSegment a.2 then onCrane p s (fun c => s.rel c a.1 a.2) else refuse s .range

def execRel (p : Port) (lo hi : Nat) (s : State) : Result :=
  serve p .rel (bodyNum2 1 1) (lo, hi) (ownRel p) false s

/-- FREL for crane X (R122), its fields in bounds. -/
def State.frel (s : State) (c : Crane) (lo hi : Nat) : State × Reply :=
  if hi < lo then refuse s .range
  else if (s.crane c).permit then refuse s .notIdle
  else
    match s.notOwned c lo hi with
    | some d => refuseDetail s .notOwner d
    | none =>
      if !s.leavesRun c lo hi then refuse s .range
      else
        match s.touchedIn c lo hi with
        | some d => refuseDetail s .conflict d
        | none =>
          let t := s.release c lo hi
          (t, .ack (holdingFields (t.holdingEnds c)))

def ownFrel (a : Nat × Nat × Nat) (s : State) : State × Reply :=
  match craneOfCode a.1 with
  | none => refuse s .range
  | some c => if okSegment a.2.1 && okSegment a.2.2 then s.frel c a.2.1 a.2.2 else refuse s .range

def execFrel (p : Port) (crane lo hi : Nat) (s : State) : Result :=
  serve p .frel (bodyNum3 1 1 1) (crane, lo, hi) ownFrel false s

/-! ## Sealing and unsealing (R124, R125) -/

/-- A segment of a zone in alarm: SEALED when free, SEAL-PENDING when held (R124). -/
def State.sealSeg (s : State) (n : Nat) : State :=
  s.setSeg n { s.seg n with sealState := if (s.seg n).holder = none then .sealed else .sealPending }

/-- A segment of a zone that returns to service: OPEN; a SEALED segment has holder NONE (R125). -/
def State.unsealSeg (s : State) (n : Nat) : State :=
  s.setSeg n
    { holder := if (s.seg n).sealState = .sealed then none else (s.seg n).holder
      sealState := .open }

/-- Zone z is sealed (R124). -/
def State.sealZone (s : State) (z : Nat) : State := (zoneSegments z).foldl (fun s n => s.sealSeg n) s

/-- Zone z is unsealed (R125). -/
def State.unsealZone (s : State) (z : Nat) : State := (zoneSegments z).foldl (fun s n => s.unsealSeg n) s

end Sys2Proof.Machine
end

