-- ==== Sys2Proof/Machine/Supervision.lean ====
section
/-! DEFINITION. Keepalive, service intervention and clearing of trips (5.6 to 5.8): KEEP, CLRT, STOP, CREEP, CREND,
KEEPALIVE_EXPIRY. -/

namespace Sys2Proof.Machine

/-! ## Keepalive (R105, R106) -/

/-- The keepalive of crane X with a window and a state; the permit is evaluated again (R104, R105). -/
def State.setKeepalive (s : State) (c : Crane) (w : Window) (k : KeepaliveState) : State :=
  (s.setCrane c { s.crane c with window := w, keepalive := k }).refreshPermit c

/-- The keepalive state that KEEP sets: STOPPED for window STOPPED, else RUNNING with the window (R105). -/
def keepState (w : Window) : KeepaliveState := if w = .stopped then .stopped else .running w.ms

def ownKeep (p : Port) (code : Nat) (s : State) : State × Reply :=
  match windowOf code with
  | none => refuse s .range
  | some w =>
    onCrane p s (fun c => (s.setKeepalive c w (keepState w), .ack [.named w.code, .named (keepState w).code]))

def execKeep (p : Port) (code : Nat) (s : State) : Result := serve p .keep (bodyNum 1) code (ownKeep p) false s

/-- A good message on crane X's port restarts a RUNNING keepalive with the present window (R106). -/
def State.restartKeepalive (s : State) (c : Crane) : State :=
  if (s.crane c).keepaliveRunning then
    s.setCrane c { s.crane c with keepalive := .running (s.crane c).window.ms }
  else s

/-- The keepalive timer of crane X runs out (R106): EXPIRED, and a LINK trip. A timer that does not run does not expire. -/
def execKeepaliveExpiry (c : Crane) (s : State) : Result :=
  whenRunning s (fun s =>
    if (s.crane c).keepaliveRunning then
      finish s ((s.setKeepalive c (s.crane c).window .expired).latchTrip c .link)
    else s)

/-! ## STOP, CREEP, CREND (R108, R109) -/

/-- The fields that name a crane's first cause and cause set (R108, R109). The first cause is an optional field of the crane record
(R90): it keeps its presence byte in STOP's ACK too, where it is never absent (DESIGN CHOICE, log 9). -/
def State.tripFields (s : State) (c : Crane) : List Field :=
  optField (fun t => .named t.code) (s.crane c).tripFirst ++ [causeMask (s.crane c).tripCauses]

def ownStop (n : Nat) (s : State) : State × Reply :=
  match craneOfCode n with
  | none => refuse s .range
  | some c =>
    let t := s.latchTrip c .service
    (t, .ack (t.tripFields c))

def execStop (p : Port) (crane : Nat) (s : State) : Result := serve p .stop (bodyNum 1) crane ownStop false s

/-- Creep permission set or cleared, and the permit evaluated again (R104, R109). -/
def State.setCreep (s : State) (c : Crane) (v : Bool) : State :=
  (s.setCrane c { s.crane c with creep := v }).refreshPermit c

/-- CREEP and CREND (R109). -/
def ownCreep (v : Bool) (n : Nat) (s : State) : State × Reply :=
  match craneOfCode n with
  | none => refuse s .range
  | some c =>
    let t := s.setCreep c v
    (t, .ack ([flagField (t.crane c).creep] ++ t.tripFields c))

def execCreep (p : Port) (crane : Nat) (s : State) : Result := serve p .creep (bodyNum 1) crane (ownCreep true) false s

def execCrend (p : Port) (crane : Nat) (s : State) : Result := serve p .crend (bodyNum 1) crane (ownCreep false) false s

/-! ## CLRT (R110) -/

/-- A zone state that keeps a crane's trip from being cleared: SEALING or OBSTRUCTED, and CLEARING where FIRE is in the cause
set (R110 condition 4). -/
def ZoneState.bars (x : ZoneState) (fire : Bool) : Bool :=
  x == .sealing || x == .obstructed || (fire && x == .clearing)

/-- A shutter state that gives a BARRIER trip to a crane that spans it (R101, R110). -/
def ShutterState.bars : ShutterState → Bool
  | .closing => true
  | .closed => true
  | .opening => true
  | .jammed => true
  | .open => false
  | .hold => false

/-- The segments from crane X's first to its last touched segment. -/
def State.touched (s : State) (c : Crane) : List Nat := upTo (s.crane c).touchFirst (s.crane c).touchLast

/-- Every last touched segment is held by X. -/
def State.touchedHeld (s : State) (c : Crane) : Bool := (s.touched c).all (s.holds c)

/-- X's last touched segments span a shutter that gives a BARRIER trip. -/
def State.touchedBarred (s : State) (c : Crane) : Bool :=
  shutterNumbers.any (fun k => (s.shutter k).state.bars && s.touchSpans c k)

/-- The detail of the first condition of R110 that fails. -/
def State.clrtRefusal (s : State) (c : Crane) : Option Nat :=
  if (s.crane c).dN8 ≠ 0 then some detailMoving
  else if !s.touchedHeld c then some detailEnvelope
  else if !(s.crane c).keepaliveRunning then some detailKeepalive
  else if (s.touched c).any
      (fun n => (s.zone (zoneOfSegment n)).state.bars ((s.crane c).tripCauses.contains .fire)) then some detailZone
  else if s.touchedBarred c then some detailBarrier
  else none

/-- The trip latch and cause set cleared, and the permit evaluated again (R110). -/
def State.clearTrip (s : State) (c : Crane) : State :=
  (s.setCrane c { s.crane c with tripLatched := false, tripFirst := none, tripCauses := [] }).refreshPermit c

/-- CLRT for crane X (R110). -/
def State.clrt (s : State) (c : Crane) : State × Reply :=
  if !(s.crane c).tripLatched then (s, .ack [flagField (s.crane c).permit])
  else
    match s.clrtRefusal c with
    | some d => refuseDetail s .condition d
    | none =>
      let t := s.clearTrip c
      (t, .ack [flagField (t.crane c).permit])

def ownClrt (p : Port) (_ : Unit) (s : State) : State × Reply := onCrane p s s.clrt

def execClrt (p : Port) (s : State) : Result := serve p .clrt bodyNone () (ownClrt p) false s

end Sys2Proof.Machine
end

