-- ==== Sys2Proof/Machine/LinkEvents.lean ====
section
/-! DEFINITION. The events of a port's receiver, assembler and request server (R192 to R197): CHARACTER_RECEIVED, BREAK,
BREAK_END, MESSAGE_COMPLETE, OVERLENGTH_MESSAGE, ASSEMBLER_REFUSAL, UNKNOWN_KIND. -/

namespace Sys2Proof.Machine

/-! ## Serving an item that no request row names (R197 steps 1 and 2) -/

/-- The server takes port `p`'s item and answers NAK with a reason and no detail. -/
def State.nakItem (s : State) (p : Port) (code : Byte) (r : Reason) : State :=
  finish s ((s.setPort p (s.port p).takeItem).respond p (.nak code r none))

/-- The item is one that the assembler refuses (R197 step 1). -/
def execAssemblerRefusal (p : Port) (s : State) : Result :=
  whenRunning s (fun s =>
    if (s.port p).ready then
      match (s.port p).item with
      | some (.refused code r) => s.nakItem p code r
      | some (.message _ _) => s
      | none => s
    else s)

/-- The item is a message whose kind code is no request kind (R197 step 2). -/
def execUnknownKind (p : Port) (s : State) : Result :=
  whenRunning s (fun s =>
    if (s.port p).ready then
      match (s.port p).item with
      | some (.message code _) => if kindOfCode code = none then s.nakItem p code .unknownKind else s
      | some (.refused _ _) => s
      | none => s
    else s)

/-! ## The end of a message (R195, R196) -/

/-- The item is a good message. -/
def Item.isGood : Item → Bool
  | .message _ _ => true
  | .refused _ _ => false

/-- A good message just completed on port A or B restarts the crane's keepalive (R196 step 3, R106). -/
def State.goodMessage (s : State) (p : Port) : State :=
  match craneOfPort p with
  | some c => if (s.port p).item.any Item.isGood then s.restartKeepalive c else s
  | none => s

/-- The second check character of port `p`'s message is taken (R196); none is at the head of the FIFO: no effect. -/
def execMessageComplete (p : Port) (s : State) : Result :=
  whenRunning s (fun s =>
    if (s.port p).item.isNone ∧ (s.port p).checkEnds = true then
      match (s.port p).partialMsg, (s.port p).fifo with
      | some m, c :: rest => (s.setPort p ((s.port p).complete m c rest)).goodMessage p
      | _, _ => s
    else s)

/-- A length character above 48 is taken: the item refuses with LENGTH, and the assembler hunts (R195; log 29). -/
def LinkPort.overlength (q : LinkPort) (m : Partial) (rest : List RxChar) : LinkPort :=
  { q with fifo := rest, partialMsg := none, item := some (.refused (m.bytes.headD 0) .length) }

def execOverlengthMessage (p : Port) (s : State) : Result :=
  whenRunning s (fun s =>
    if (s.port p).item.isNone ∧ (s.port p).lengthEnds = true then
      match (s.port p).partialMsg, (s.port p).fifo with
      | some m, _ :: rest => s.setPort p ((s.port p).overlength m rest)
      | _, _ => s
    else s)

/-! ## Characters and breaks (R192 to R194) -/

/-- A break on a crane's port trips the crane for BREAK (R107). -/
def State.breakTrip (s : State) (p : Port) : State :=
  match craneOfPort p with
  | some c => s.latchTrip c .break
  | none => s

/-- A break is received on port `p` (R193). -/
def State.takeBreak (s : State) (p : Port) : State := (s.setPort p (s.port p).takeBreak).breakTrip p

/-- BREAK: a receiver that still waits for the line after a break receives no other (R193). -/
def execLineBreak (p : Port) (s : State) : Result :=
  whenRunning s (fun s => if (s.port p).afterBreak then s else finish s (s.takeBreak p))

/-- The line has been 1 for a whole bit time after a break: the receiver searches again (R193). -/
def execBreakEnd (p : Port) (s : State) : Result :=
  whenRunning s (fun s => s.setPort p { s.port p with afterBreak := false })

/-- The NOISE flag of a character (R192). -/
def LinkPort.noteNoise (q : LinkPort) (noisy : Bool) : LinkPort :=
  if noisy then { q with flags := { q.flags with noise := true } } else q

/-- The character of a frame that is no break arrives at the FIFO: with stop bit 0 it sets FRAMING and carries a damage mark
(R192, R193). -/
def LinkPort.arrive (q : LinkPort) (f : RxFrame) : LinkPort :=
  if majority f.stop then q.enter (frameData f) (majority f.marker) false
  else ({ q with flags := { q.flags with framing := true } } : LinkPort).enter (frameData f) (majority f.marker) true

/-- A character is received on port `p`, and the assembler takes what it can (R192 to R195; log 6). -/
def State.receive (s : State) (p : Port) (f : RxFrame) : State :=
  let t := s.setPort p ((s.port p).noteNoise (frameNoisy f))
  if frameIsBreak f then t.takeBreak p else t.setPort p ((t.port p).arrive f).assemble

/-- CHARACTER_RECEIVED: a start bit that is not confirmed abandons the character (R192; log 21). -/
def execCharacterReceived (p : Port) (f : RxFrame) (s : State) : Result :=
  whenRunning s (fun s =>
    if (s.port p).afterBreak || !frameConfirmed f then s else finish s (s.receive p f))

end Sys2Proof.Machine
end

