-- ==== Sys2Proof/Machine/Reads.lean ====
section
/-! DEFINITION. The reads common to all ports: STAT, RDBIN, RDCELL, RDORD, RDCRN, RDSEG, RDZONE. -/

namespace Sys2Proof.Machine

/-! ## STAT (R200) -/

/-- The scheduler's figures for a crane in STAT (R200 item 6). -/
def schedFields (r : SchedCrane) : List Field := [.num 1 r.credits, .num 2 r.cursor, flagField r.lag]

/-- The fields of STAT's ACK (R200). -/
def State.statFields (s : State) (p : Port) : List Field :=
  [.num 1 (s.port p).flags.mask, .named s.coldStart.code, .named s.sched.wing.code, .zoneSet s.sched.verifySet,
    .num 1 s.liveCount, .num 2 s.sched.epoch.toNat] ++
  schedFields s.sched.a ++ schedFields s.sched.b ++ [.indication s.troubleOutput]

/-- STAT on port `p`: after the content is fixed the port's flags are cleared, and on port S the cold-start indicator. -/
def ownStat (p : Port) (_ : Unit) (s : State) : State × Reply :=
  let s1 := s.setPort p { s.port p with flags := .clear }
  (if p = .S then s1.setColdStart .clear else s1, .ack (s.statFields p))

def execStat (p : Port) (s : State) : Result := serve p .stat bodyNone () (ownStat p) false s

/-! ## RDBIN (R36) -/

/-- The bay fields of a bin record: its bay's state and flags when it is AT-BAY, else absent (R36), each with its own presence byte
(DESIGN CHOICE, log 9). -/
def State.binBayFields (s : State) (b : Bin) : List Field :=
  match b.place with
  | .atBay st n =>
    let r := s.bay st n
    [.present, .named r.state.code, .present, flagField r.keep, .present, flagField r.stowWanted]
  | .unregistered => [.absent, .absent, .absent]
  | .stored _ => [.absent, .absent, .absent]
  | .onCrane _ => [.absent, .absent, .absent]
  | .misplaced => [.absent, .absent, .absent]

/-- The fields of RDBIN's ACK (R36). The sixteen compartment states are sixteen bytes: their number is fixed (R18), and the model
sends no count before them, which R190 gives a compartment list (DESIGN CHOICE, log 9). -/
def State.binFields (s : State) (n : Nat) : List Field :=
  let b := s.bin n
  [.named b.place.code] ++ optField .place b.place.location ++ [flagField b.quarantine] ++
    b.comps.map (fun c => .named c.code) ++ [.num 1 b.freeCount] ++ optField .handle b.order ++ s.binBayFields b

def ownRdbin (n : Nat) (s : State) : State × Reply :=
  if okBin n then (s, .ack (s.binFields n)) else refuse s .range

def execRdbin (p : Port) (bin : Nat) (s : State) : Result := serve p .rdbin (bodyNum 2) bin ownRdbin false s

/-! ## RDCELL (R37) -/

/-- The fields of RDCELL's ACK (R37). -/
def State.cellFields (s : State) (n : Nat) : List Field :=
  let c := s.cell n
  [.named c.state.code] ++ optField (.num 2) c.state.bin ++ optField .handle c.state.destOf ++
    optField (fun e => .num 2 e.toNat) c.stamp ++ [.num 1 c.unread, .num 1 (zoneOfCell n)]

def ownRdcell (n : Nat) (s : State) : State × Reply :=
  if okCell n then (s, .ack (s.cellFields n)) else refuse s .range

def execRdcell (p : Port) (cell : Nat) (s : State) : Result := serve p .rdcell (bodyNum 2) cell ownRdcell false s

/-! ## RDORD (R63) -/

/-- The fields of a live order (R63 items 2 to 18). The progress timer is sent as an optional field: byte 0 while it is stopped, byte 1
and the time while it runs (DESIGN CHOICE, log 9). -/
def orderFields (h : Handle) (o : Order) : List Field :=
  [.handle h, .named o.kind.code, .named o.purpose.code, .named o.state.code] ++ optField (.num 2) o.bin ++
    [.place o.source] ++ optField .place o.dest ++ optField (.num 1) o.destBay ++
    [.num 1 (craneCode o.crane), .named o.issuer.code, .num 1 o.authority, .num 4 o.seq.toNat, .num 1 o.bypass] ++
    optField .loan o.loan ++ [.num 1 o.level, flagField o.stalled] ++
    optField (fun ms => .num 2 (secondsUp ms)) o.timer

/-- RDORD: the live order, else the slot's generation, else the handle of the order that holds the slot (R63). -/
def ownRdord (a : Nat × Nat) (s : State) : State × Reply :=
  if okSlot a.1 then
    let h : Handle := ⟨a.1, a.2⟩
    match s.orderOf h with
    | some o => (s, .ack ([.named 0] ++ orderFields h o))
    | none =>
      match (s.slot a.1).order with
      | none => (s, .ack [.named 1, .named 0, .num 1 (s.slot a.1).gen])
      | some _ => (s, .ack [.named 1, .named 1, .handle (s.handleAt a.1)])
  else refuse s .range

def execRdord (p : Port) (slot gen : Nat) (s : State) : Result :=
  serve p .rdord (bodyNum2 1 1) (slot, gen) ownRdord false s

/-! ## RDCRN (R111) -/

/-- The time to expiry of a running keepalive in milliseconds (R111 item 10). -/
def KeepaliveState.left : KeepaliveState → Option Nat
  | .running ms => some ms
  | .stopped => none
  | .expired => none

/-- The fields of RDCRN's ACK (R111). R90 lists no values for the trip record's latched flag, so R190 numbers none: its byte is a
free value, as every such indication's is (DESIGN CHOICE, log 8). The keepalive's time is sent as an optional field, with byte 0 where
it does not run (DESIGN CHOICE, log 9). -/
def State.craneFields (s : State) (c : Crane) : List Field :=
  let r := s.crane c
  [.named (if r.ref.isSome then 1 else 0), .num 3 r.counter.toNat] ++
    optField (fun q => .num 3 q.nHome.toNat) r.ref ++
    optField (fun n => .num 3 n.toNat) (r.ref.bind Reference.phase) ++
    optField (fun q => .int 3 q.x) r.ref ++
    [.int 3 r.dN8, .num 2 r.speed, .named r.direction.code, .num 2 r.margin,
      .num 3 r.envLo, .num 3 r.envHi, .num 1 r.touchFirst, .num 1 r.touchLast, .indication r.tripLatched] ++
    optField (fun t => .named t.code) r.tripFirst ++
    [causeMask r.tripCauses, .named r.window.code, .named r.keepalive.code] ++
    optField (.num 2) r.keepalive.left ++
    [flagField r.creep, flagField r.permit] ++ optField (.num 2) r.carried ++ optField .handle r.active ++
    optField .handle r.lastCompleted ++ [.num 1 r.lastLevel, flagField r.orphan, .indication r.waiting]

def ownRdcrn (n : Nat) (s : State) : State × Reply :=
  match craneOfCode n with
  | none => refuse s .range
  | some c => (s, .ack (s.craneFields c))

def execRdcrn (p : Port) (crane : Nat) (s : State) : Result := serve p .rdcrn (bodyNum 1) crane ownRdcrn false s

/-! ## RDSEG (R123) -/

/-- The shutter whose boundary segment this is (R6, R123). -/
def boundaryShutter (n : Nat) : Option Nat :=
  shutterNumbers.find? (fun k => n == shutterWest k || n == shutterEast k)

/-- The boundary shutter's number and state, or absent (R123 item 4). The two fields are absent together: the model gives the
pair one presence byte (DESIGN CHOICE, log 9). -/
def State.boundaryFields (s : State) (n : Nat) : List Field :=
  match boundaryShutter n with
  | none => [.absent]
  | some k => [.present, .num 1 k, .named (s.shutter k).state.code]

/-- The fields of RDSEG's ACK (R123). -/
def State.segFields (s : State) (n : Nat) : List Field :=
  [.named (holderCode (s.seg n).holder), .named (s.seg n).sealState.code, .num 1 (zoneOfSegment n)] ++
    s.boundaryFields n ++ holdingFields (s.holdingEnds .A) ++ holdingFields (s.holdingEnds .B)

def ownRdseg (n : Nat) (s : State) : State × Reply :=
  if okSegment n then (s, .ack (s.segFields n)) else refuse s .range

def execRdseg (p : Port) (segment : Nat) (s : State) : Result := serve p .rdseg (bodyNum 1) segment ownRdseg false s

/-! ## RDZONE (R186) -/

/-- The fields of one shutter in RDZONE (R186 item 6). The travel timer is sent as an optional field: byte 0 while it is stopped, byte 1
and the time while it runs (DESIGN CHOICE, log 9). -/
def State.shutterFields (s : State) (k : Nat) : List Field :=
  [.num 1 k, .named (s.shutter k).state.code, flagField (s.demanded k)] ++ optField (.num 2) (s.shutter k).timer ++
    [.indication (s.shutter k).closedLimit, .indication (s.shutter k).openLimit]

/-- The number of a zone's segments in a seal state (R186 item 9). -/
def State.sealCount (s : State) (z : Nat) (x : Seal) : Nat :=
  (zoneSegments z).countP (fun n => (s.seg n).sealState == x)

/-- The fields of RDZONE's ACK (R186). The clearance timer is sent as an optional field: byte 0 while it is stopped, byte 1 and the time
while it runs. The last sample value and its raw class, absent together before the first sample (R187), have a presence byte each
(DESIGN CHOICE, log 9, both). -/
def State.zoneFields (s : State) (z : Nat) : List Field :=
  let l := s.loop z
  [.named (s.zone z).state.code, flagField (s.zone z).latch] ++ optField (.num 3) (s.zone z).timer ++
    optField (.num 1) l.lastValue ++ optField (fun c => .named c.code) l.lastRaw ++
    [.named l.filtered.code] ++ optField (fun c => .named c.code) l.candidate ++ [.num 1 l.count] ++
    (zoneShutters z).flatMap s.shutterFields ++
    [.indication (s.zoneSealedOutput z), .indication s.troubleOutput, .indication s.manualRelease,
      .num 1 (s.sealCount z .open), .num 1 (s.sealCount z .sealPending), .num 1 (s.sealCount z .sealed)]

/-- RDZONE for zone `a.zone`, with the level of the manual-release input as the request is taken (R186 item 8; log 17). -/
def ownRdzone (a : ZoneRead) (s : State) : State × Reply :=
  if okZone a.zone then
    let t := s.setManual a.manualRelease
    (t, .ack (t.zoneFields a.zone))
  else refuse s .range

def execRdzone (p : Port) (read : ZoneRead) (s : State) : Result :=
  serve p .rdzone (fun body => (bodyNum 1 body).map (fun z => ⟨z, read.manualRelease⟩)) read ownRdzone false s

end Sys2Proof.Machine
end

