-- ==== Sys2Proof/Machine/Service.lean ====
section
/-! DEFINITION. The service console's directory and order requests (2.7, R53, R60, R161, R162): ASSIGN, CLRSUS, BLOCK, UNBLK,
QUAR, UNQUAR, SETCMP, MOVE, CANCEL_ON_PORT_S, WHOLD, WRES. -/

namespace Sys2Proof.Machine

/-! ## ASSIGN (R31) -/

/-- Check 2 of R31: the cell is EMPTY, UNVERIFIED or SUSPECT, or the cell in which the bin is already STORED. -/
def State.assignCellOk (s : State) (b n : Nat) : Bool :=
  match (s.cell n).state with
  | .empty => true
  | .unverified => true
  | .suspect => true
  | .occupied _ => (s.bin b).place == .stored n
  | .reserved _ => (s.bin b).place == .stored n
  | .blocked => (s.bin b).place == .stored n

/-- The bin is ON-CRANE. -/
def BinPlace.isOnCrane : BinPlace → Bool
  | .onCrane _ => true
  | .unregistered => false
  | .stored _ => false
  | .atBay _ _ => false
  | .misplaced => false

/-- The bin's old place is freed (R31 change 2). -/
def State.leaveOldPlace (s : State) (b : Nat) (cell : Option Nat) : State :=
  match (s.bin b).place with
  | .stored n => if cell = some n then s else s.cellTo n .unverified
  | .atBay st bay => s.emptyBay st bay
  | .unregistered => s
  | .onCrane _ => s
  | .misplaced => s

/-- The bin's new place (R31 change 3). -/
def State.takeNewPlace (s : State) (b : Nat) (cell : Option Nat) : State :=
  match cell with
  | some n => (s.setCell n { state := .occupied b, stamp := none, unread := 0 }).binTo b (.stored n)
  | none => s.binTo b .unregistered

/-- The changes of an accepted ASSIGN, in their order (R31). -/
def State.assign (s : State) (b : Nat) (cell : Option Nat) : State :=
  ((s.setBin b (s.bin b).revertPicks.revertClaims).leaveOldPlace b cell).takeNewPlace b cell

def ownAssign (a : Nat × Option Nat) (s : State) : State × Reply :=
  if !(okBin a.1 && okOptCell a.2) then refuse s .range
  else if (s.bin a.1).order.isSome || (s.bin a.1).place.isOnCrane then refuse s .binBusy
  else if a.2.any (fun n => !s.assignCellOk a.1 n) then refuse s .cellState
  else
    let t := s.assign a.1 a.2
    (t, .ack ([.named (t.bin a.1).place.code] ++ optField .place (t.bin a.1).place.location))

def execAssign (p : Port) (bin : Nat) (cell : Option Nat) (s : State) : Result :=
  serve p .assign bodyAssign (bin, cell) ownAssign false s

/-! ## CLRSUS, UNBLK, BLOCK (R32, R33) -/

/-- CLRSUS and UNBLK take a cell from one state to UNVERIFIED (R32). -/
def ownToUnverified (source : CellState) (n : Nat) (s : State) : State × Reply :=
  if !okCell n then refuse s .range
  else if (s.cell n).state = source then
    let t := s.cellTo n .unverified
    (t, .ack [.named (t.cell n).state.code])
  else refuse s .cellState

def execClrsus (p : Port) (cell : Nat) (s : State) : Result :=
  serve p .clrsus (bodyNum 2) cell (ownToUnverified .suspect) false s

def execUnblk (p : Port) (cell : Nat) (s : State) : Result :=
  serve p .unblk (bodyNum 2) cell (ownToUnverified .blocked) false s

/-- The states from which BLOCK is accepted (R33). -/
def CellState.blockable : CellState → Bool
  | .empty => true
  | .unverified => true
  | .suspect => true
  | .blocked => true
  | .occupied _ => false
  | .reserved _ => false

def ownBlock (n : Nat) (s : State) : State × Reply :=
  if !okCell n then refuse s .range
  else if (s.cell n).state.blockable then
    let t := s.enterBlocked n
    (t, .ack [.named (t.cell n).state.code])
  else refuse s .cellState

def execBlock (p : Port) (cell : Nat) (s : State) : Result := serve p .block (bodyNum 2) cell ownBlock false s

/-! ## QUAR, UNQUAR (R34) -/

/-- QUAR and UNQUAR (R34). -/
def ownQuar (v : Bool) (b : Nat) (s : State) : State × Reply :=
  if !okBin b then refuse s .range
  else
    let t := s.setBin b { s.bin b with quarantine := v }
    (t, .ack [flagField (t.bin b).quarantine])

def execQuar (p : Port) (bin : Nat) (s : State) : Result := serve p .quar (bodyNum 2) bin (ownQuar true) false s

def execUnquar (p : Port) (bin : Nat) (s : State) : Result := serve p .unquar (bodyNum 2) bin (ownQuar false) false s

/-! ## SETCMP (R35) -/

def ownSetcmp (a : Nat × List Nat) (s : State) : State × Reply :=
  if !okBin a.1 then refuse s .range
  else
    match setcmpStates a.2 with
    | none => refuse s .range
    | some comps =>
      if (s.bin a.1).order.isSome || (s.bin a.1).hasOpen then refuse s .binBusy
      else
        let t := s.setBin a.1 { s.bin a.1 with comps := comps }
        (t, .ack [.num 1 (t.bin a.1).freeCount])

def execSetcmp (p : Port) (bin : Nat) (states : List Nat) (s : State) : Result :=
  serve p .setcmp bodySetcmp (bin, states) ownSetcmp false s

/-! ## MOVE (R53) -/

/-- The crane of a MOVE from a cell, by the split rule (R52). -/
def State.splitCrane (s : State) (n : Nat) : Crane := if cellColumn n < s.settings.split then .A else .B

/-- The MOVE order of a bin to a cell (R44, R52, R53): from its cell or its bay; none when the bin is neither STORED nor
AT-BAY. -/
def State.moveOrder (s : State) (b n authority : Nat) : Option Order :=
  match (s.bin b).place with
  | .stored m =>
    some (newOrder .move .service (some b) (.cell m) (some (.cell n)) (s.splitCrane m) .S authority none (cellLevel m))
  | .atBay st bay =>
    some (newOrder .move .service (some b) (.bay st bay) (some (.cell n)) (craneOf st) .S authority none (cellLevel n))
  | .unregistered => none
  | .onCrane _ => none
  | .misplaced => none

def ownMove (a : Nat × Nat × Nat) (s : State) : State × Reply :=
  if !(okBin a.1 && okCell a.2.1 && okAuthority a.2.2) then refuse s .range
  else if (s.bin a.1).order.isSome || (s.bin a.1).place.isOnCrane then refuse s .binBusy
  else
    match s.moveOrder a.1 a.2.1 (effectiveAuthority a.2.2 .S) with
    | none => refuse s .binState
    | some o =>
      if (s.cell a.2.1).state ≠ .empty then refuse s .cellState
      else
        match s.creationRefusal (some a.1) .move with
        | some r => refuse s r
        | none =>
          match s.create o with
          | none => refuse s .tableFull
          | some (t, h) => (t, .ack [.handle h, .num 1 (craneCode o.crane), .num 1 o.authority])

def execMove (p : Port) (bin cell authority : Nat) (s : State) : Result :=
  serve p .move (bodyNum3 2 2 1) (bin, cell, authority) ownMove false s

/-! ## CANCEL on port S (R60) -/

/-- The final state of an order that the service console cancels (R60). -/
def OrderState.serviceFinal : OrderState → FinalState
  | .queued => .cancelled
  | .dispatched => .cancelled
  | .loaded => .failed

/-- CANCEL taken on port S (R60). -/
def ownServiceCancel (a : Nat × Nat) (s : State) : State × Reply :=
  if !okSlot a.1 then refuse s .range
  else
    let h : Handle := ⟨a.1, a.2⟩
    match s.orderOf h with
    | none => refuse s .orderState
    | some o =>
      (s.endOrder a.1 o.state.serviceFinal (some .cancelledService), .ack [.handle h, .final o.state.serviceFinal])

def execCancelOnPortS (slot gen : Nat) (s : State) : Result :=
  serve .S .cancel (bodyNum2 1 1) (slot, gen) ownServiceCancel false s

/-! ## WHOLD, WRES (R161, R162) -/

/-- The members of a zone set, ascending (log 16). -/
def canonicalZones (l : List Nat) : List Nat := zoneNumbers.filter (fun z => l.contains z)

/-- The conditions of WHOLD: no live order but VERIFY orders, and both cranes still (R161). -/
def State.wingIdle (s : State) : Bool :=
  s.liveOrders.all (fun e => e.2.kind == .verify) && s.craneA.dN8 == 0 && s.craneB.dN8 == 0

def ownWhold (zones : List Nat) (s : State) : State × Reply :=
  if !okZoneSet zones then refuse s .range
  else if !s.wingIdle then refuse s .notIdle
  else
    (s.setSched { s.sched with wing := .held, verifySet := canonicalZones zones },
      .ack [.named WingState.held.code, .zoneSet (canonicalZones zones)])

def execWhold (p : Port) (zones : List Nat) (s : State) : Result := serve p .whold bodyZones zones ownWhold true s

def ownWres (_ : Unit) (s : State) : State × Reply :=
  (s.setSched { s.sched with wing := .normal, verifySet := zoneNumbers }, .ack [.named WingState.normal.code])

def execWres (p : Port) (s : State) : Result := serve p .wres bodyNone () ownWres false s

end Sys2Proof.Machine
end

