-- ==== Sys2Proof/Machine/Lending.lean ====
section
/-! DEFINITION. Lending and returns (chapter 7): FETCH, PICK, UNPICK, SLOT, PLACE, UNCLAIM, RELBAY, auto-stow, and CANCEL on
port C (R59). -/

namespace Sys2Proof.Machine

/-! ## Auto-stow (R144 to R146) -/

/-- The bin of an OCCUPIED bay (R28). -/
def BayState.occupiedBin : BayState → Option Nat
  | .occupied b => some b
  | .empty => none
  | .inbound _ => none
  | .outbound _ => none

/-- The bin a bay records, present in OCCUPIED and OUTBOUND (R28). -/
def BayState.bin : BayState → Option Nat
  | .occupied b => some b
  | .outbound b => some b
  | .empty => none
  | .inbound _ => none

/-- Conditions 1 to 4 of R144, with the bay's bin. -/
def State.stowCandidate (s : State) (st : Station) (bay : Nat) : Option Nat :=
  match (s.bay st bay).state.occupiedBin with
  | none => none
  | some b =>
    if (s.bin b).hasOpen || (s.bay st bay).keep || (s.bin b).order.isSome then none else some b

/-- The STOW of a bay's bin to a cell (R44, R146). -/
def stowOrder (st : Station) (bay b n : Nat) : Order :=
  newOrder .stow .auto (some b) (.bay st bay) (some (.cell n)) (craneOf st) .part 3 none (cellLevel n)

/-- An auto-stow creation is attempted (R146): the STOW and its handle, or the bay's stow-wanted flag. -/
def State.attemptStow (s : State) (st : Station) (bay b : Nat) : State × Option Handle :=
  let wanted := (s.setStowWanted st bay true, none)
  match s.creationRefusal (some b) .stow with
  | some _ => wanted
  | none =>
    match s.destScan st with
    | none => wanted
    | some n =>
      match s.create (stowOrder st bay b n) with
      | none => wanted
      | some (t, h) => (t, some h)

/-- The auto-stow condition of a bay is evaluated (R145). -/
def State.autoStow (s : State) (st : Station) (bay : Nat) : State × Option Handle :=
  match s.stowCandidate st bay with
  | none => (s, none)
  | some b => s.attemptStow st bay b

/-! ## FETCH (R128 to R131) -/

/-- Check 3 of R128: the first listed compartment that is not OCCUPIED. -/
def Bin.firstNotOccupied (b : Bin) (picks : List Nat) : Option Nat := picks.find? (fun i => b.comp i != .occupied)

/-- The listed compartments become PENDING-PICK. -/
def State.markPicks (s : State) (b : Nat) (picks : List Nat) : State :=
  s.setBin b ((s.bin b).setComps picks .pendingPick)

/-- R129: the bin's live order, if any, is a QUEUED STOW of purpose AUTO; its slot. -/
def State.queuedAutoStow (s : State) (b : Nat) : Option Nat :=
  match s.slotOfBin b with
  | none => none
  | some i =>
    match (s.slot i).order with
    | none => none
    | some o => if o.state = .queued ∧ o.kind = .stow ∧ o.purpose = .auto then some i else none

/-- The picks are marked and, when there are none, the bay is kept (R129). -/
def State.takeAtBay (s : State) (b : Nat) (st : Station) (bay : Nat) (picks : List Nat) : State :=
  let t := s.markPicks b picks
  if picks.isEmpty then t.setKeep st bay true else t

/-- FETCH taken at the bay (R129). -/
def State.fetchAtBay (s : State) (b : Nat) (st : Station) (bay : Nat) (picks : List Nat) : State × Reply :=
  let fields (h : Option Handle) : List Field :=
    [.absent, .num 1 (stationCode st), .num 1 bay] ++ optField .handle h
  match (s.bin b).order with
  | none => (s.takeAtBay b st bay picks, .ack (fields none))
  | some h =>
    match s.queuedAutoStow b with
    | none => refuse s .binBusy
    | some i => ((s.endOrder i .cancelled none).takeAtBay b st bay picks, .ack (fields (some h)))

/-- The zone of a FETCH that is out of service: the cell's before the station's (R130 check 2). -/
def State.fetchZone (s : State) (n : Nat) (st : Station) : Option Nat :=
  [zoneOfCell n, zoneOfStation st].find? (fun z =>
    (s.zone z).state != .inService && (s.zone z).state != .degraded)

/-- The FETCH order of a loan (R44, R131). -/
def loanOrder (b n : Nat) (st : Station) (loan : BitVec 32) : Order :=
  newOrder .fetch .loan (some b) (.cell n) (some (.station st)) (craneOf st) .C (effectiveAuthority 0 .C) (some loan)
    (cellLevel n)

/-- FETCH not taken at the bay (R130, R131). -/
def State.fetchStored (s : State) (b : Nat) (st : Station) (picks : List Nat) (loan : BitVec 32) : State × Reply :=
  if (s.bin b).order.isSome then refuse s .binBusy
  else
    match (s.bin b).place with
    | .stored n =>
      match s.fetchZone n st with
      | some z => refuseDetail s .zoneClosed z
      | none =>
        match s.creationRefusal (some b) .fetch with
        | some r => refuse s r
        | none =>
          match s.create (loanOrder b n st loan) with
          | none => refuse s .tableFull
          | some (t, h) =>
            (t.markPicks b picks, .ack [.present, .handle h, .num 1 (craneCode (craneOf st))])
    | .unregistered => refuse s .binBusy
    | .onCrane _ => refuse s .binBusy
    | .atBay _ _ => refuse s .binBusy
    | .misplaced => refuse s .binBusy

/-- The bin is registered, not lost and not quarantined (R128 check 2). -/
def Bin.lendable (b : Bin) : Bool := b.place != .unregistered && b.place != .misplaced && !b.quarantine

/-- FETCH, its fields in bounds (R128 to R131). -/
def State.fetch (s : State) (b : Nat) (st : Station) (picks : List Nat) (loan : BitVec 32) : State × Reply :=
  match firstRepeat picks with
  | some d => refuseDetail s .range d
  | none =>
    if !(s.bin b).lendable then refuse s .binState
    else
      match (s.bin b).firstNotOccupied picks with
      | some d => refuseDetail s .binState d
      | none =>
        match (s.bin b).place with
        | .atBay st' bay => if st' = st then s.fetchAtBay b st bay picks else refuse s .binBusy
        | .stored _ => s.fetchStored b st picks loan
        | .onCrane _ => s.fetchStored b st picks loan
        | .unregistered => s.fetchStored b st picks loan
        | .misplaced => s.fetchStored b st picks loan

def ownFetch (a : FetchArgs) (s : State) : State × Reply :=
  match stationOfCode a.station with
  | none => refuse s .range
  | some st =>
    if okBin a.bin && a.picks.all okCompartment && decide (a.picks.length ≤ 16) && okAuthority a.authority then
      s.fetch a.bin st a.picks a.loan
    else refuse s .range

def execFetch (p : Port) (bin station : Nat) (picks : List Nat) (loan : BitVec 32) (authority : Nat) (s : State) : Result :=
  serve p .fetch bodyFetch ⟨bin, station, picks, loan, authority⟩ ownFetch false s

/-! ## PICK, UNPICK, PLACE, UNCLAIM (R133 to R137) -/

/-- The fields of an ACK that names the bay of an AT-BAY bin, after the request (R133). The four are absent together: the model gives
each its own presence byte (DESIGN CHOICE, log 9). -/
def State.deskFields (s : State) (b : Nat) : List Field :=
  match (s.bin b).place with
  | .atBay st bay =>
    [.present, .num 1 (stationCode st), .present, .num 1 bay, .present, flagField (s.bay st bay).keep,
      .present, flagField (s.bay st bay).stowWanted]
  | .unregistered => [.absent, .absent, .absent, .absent]
  | .stored _ => [.absent, .absent, .absent, .absent]
  | .onCrane _ => [.absent, .absent, .absent, .absent]
  | .misplaced => [.absent, .absent, .absent, .absent]

/-- The auto-stow condition is evaluated for the bay of an AT-BAY bin (R133, R145). -/
def State.evalDesk (s : State) (b : Nat) : State × Option Handle :=
  match (s.bin b).place with
  | .atBay st bay => s.autoStow st bay
  | .unregistered => (s, none)
  | .stored _ => (s, none)
  | .onCrane _ => (s, none)
  | .misplaced => (s, none)

/-- The end of an accepted compartment request that has changed compartment `i` of bin `b` (R133). -/
def State.deskDone (s : State) (b i : Nat) : State × Reply :=
  let t := s.evalDesk b
  (t.1, .ack ([.num 1 i, .named ((t.1.bin b).comp i).code, .num 1 (t.1.bin b).freeCount] ++ t.1.deskFields b ++
    optField .handle t.2))

/-- A compartment request (R133): the bin AT-BAY where `atBay` asks for it, the compartment in state `source`, which becomes
`target`. `after` is what the request's own rule adds. -/
def deskRequest (atBay : Bool) (source target : Comp) (after : Nat → State → State) (a : Nat × Nat) (s : State) :
    State × Reply :=
  if !(okBin a.1 && okCompartment a.2) then refuse s .range
  else if atBay && !(s.bin a.1).place.isAtBay then refuse s .binState
  else if (s.bin a.1).comp a.2 ≠ source then refuseDetail s .binState a.2
  else (after a.1 (s.setBin a.1 ((s.bin a.1).setComp a.2 target))).deskDone a.1 a.2

/-- Nothing is added. -/
def noAfter (_ : Nat) (s : State) : State := s

def ownPick (a : Nat × Nat) (s : State) : State × Reply := deskRequest true .pendingPick .free noAfter a s

def execPick (p : Port) (bin compartment : Nat) (s : State) : Result :=
  serve p .pick (bodyNum2 2 1) (bin, compartment) ownPick false s

def ownUnpick (a : Nat × Nat) (s : State) : State × Reply := deskRequest false .pendingPick .occupied noAfter a s

def execUnpick (p : Port) (bin compartment : Nat) (s : State) : Result :=
  serve p .unpick (bodyNum2 2 1) (bin, compartment) ownUnpick false s

/-- A PLACE that leaves the bin without a FREE compartment clears its bay's keep flag (R136). -/
def keepUnlessFull (b : Nat) (s : State) : State :=
  match (s.bin b).place with
  | .atBay st bay => if (s.bin b).freeCount = 0 then s.setKeep st bay false else s
  | .unregistered => s
  | .stored _ => s
  | .onCrane _ => s
  | .misplaced => s

def ownPlace (a : Nat × Nat) (s : State) : State × Reply := deskRequest true .claimed .occupied keepUnlessFull a s

def execPlace (p : Port) (bin compartment : Nat) (s : State) : Result :=
  serve p .place (bodyNum2 2 1) (bin, compartment) ownPlace false s

def ownUnclaim (a : Nat × Nat) (s : State) : State × Reply := deskRequest true .claimed .free noAfter a s

def execUnclaim (p : Port) (bin compartment : Nat) (s : State) : Result :=
  serve p .unclaim (bodyNum2 2 1) (bin, compartment) ownUnclaim false s

/-! ## SLOT (R139 to R141) -/

/-- A bay of which SLOT can claim a compartment: OCCUPIED, its bin with no live order and not quarantined, with a FREE
compartment. The bin and its lowest FREE compartment (R139). -/
def State.slotBay (s : State) (st : Station) (bay : Nat) : Option (Nat × Nat) :=
  match (s.bay st bay).state.occupiedBin with
  | none => none
  | some b =>
    if (s.bin b).order.isSome || (s.bin b).quarantine then none
    else (s.bin b).lowestFree.map (fun i => (b, i))

/-- The first bay of the station, bay 0 before bay 1, that SLOT does not pass over: the bay, its bin and the compartment
(R139). -/
def State.slotChoice (s : State) (st : Station) : Option (Nat × Nat × Nat) :=
  match s.slotBay st 0 with
  | some (b, i) => some (0, b, i)
  | none =>
    match s.slotBay st 1 with
    | some (b, i) => some (1, b, i)
    | none => none

/-- The slot of the live return fetch for a station (R140). -/
def State.returnFetch (s : State) (st : Station) : Option Nat :=
  (s.liveOrders.find? (fun e => e.2.kind == .fetch && e.2.purpose == .ret && e.2.dest == some (.station st))).map
    (fun e => e.1)

/-- SLOT's answer in the NONE form: reason 0 absent, 1 WAIT, 2 NO-SPACE, and the handle of the live or created fetch (R140,
R141, R190). R141 names no handle for NO-SPACE; the model sends the handle as an optional field in every NONE form, so a
presence byte stands before it, and the absent byte 0 after NO-SPACE (DESIGN CHOICE, log 9). -/
def slotNone (reason : Nat) (h : Option Handle) : Reply := .ack ([.named 1, .named reason] ++ optField .handle h)

/-- The FETCH order of a return (R44, R141). -/
def returnOrder (b n : Nat) (st : Station) : Order :=
  newOrder .fetch .ret (some b) (.cell n) (some (.station st)) (craneOf st) .C (effectiveAuthority 0 .C) none (cellLevel n)

/-- SLOT when no bay yields a compartment and no return fetch is live (R141). -/
def State.slotFetch (s : State) (st : Station) : State × Reply :=
  match s.returnScan st with
  | none => (s, slotNone 2 none)
  | some n =>
    match (s.cell n).state.bin with
    | none => (s, slotNone 2 none)
    | some b =>
      match s.creationRefusal (some b) .fetch with
      | some r => refuse s r
      | none =>
        match s.create (returnOrder b n st) with
        | none => refuse s .tableFull
        | some (t, h) => (t, slotNone 0 (some h))

/-- SLOT for a station (R139 to R141). -/
def State.allocSlot (s : State) (st : Station) : State × Reply :=
  match s.slotChoice st with
  | some (bay, b, i) =>
    let t := s.setBin b ((s.bin b).setComp i .claimed)
    (t, .ack [.named 0, .num 1 (stationCode st), .num 1 bay, .num 2 b, .num 1 i, .num 1 (t.bin b).freeCount])
  | none =>
    match s.returnFetch st with
    | some i => (s, slotNone 1 (some (s.handleAt i)))
    | none => s.slotFetch st

def ownSlot (n : Nat) (s : State) : State × Reply :=
  match stationOfCode n with
  | none => refuse s .range
  | some st => s.allocSlot st

def execSlot (p : Port) (station : Nat) (s : State) : Result := serve p .slot (bodyNum 1) station ownSlot false s

/-! ## RELBAY (R143) -/

/-- RELBAY for a bay (R143). -/
def State.relbay (s : State) (st : Station) (bay : Nat) : State × Reply :=
  let t := (s.setKeep st bay false).autoStow st bay
  let r := t.1.bay st bay
  (t.1, .ack ([.named r.state.code] ++ optField (.num 2) r.state.bin ++ [flagField r.keep, flagField r.stowWanted] ++
    optField .handle t.2))

def ownRelbay (a : Nat × Nat) (s : State) : State × Reply :=
  match stationOfCode a.1 with
  | none => refuse s .range
  | some st => if okBay a.2 then s.relbay st a.2 else refuse s .range

def execRelbay (p : Port) (station bay : Nat) (s : State) : Result :=
  serve p .relbay (bodyNum2 1 1) (station, bay) ownRelbay false s

/-! ## CANCEL on port C (R59) -/

/-- CANCEL taken on port C (R59). -/
def ownCancel (a : Nat × Nat) (s : State) : State × Reply :=
  if !okSlot a.1 then refuse s .range
  else
    let h : Handle := ⟨a.1, a.2⟩
    match s.orderOf h with
    | none => refuse s .orderState
    | some o =>
      if o.issuer = .C ∧ o.kind = .fetch ∧ o.state = .queued then
        (s.endOrder a.1 .cancelled none, .ack [.handle h])
      else refuse s .orderState

/-- CANCEL on a port: on port S it is the service request of R60 (R191), elsewhere that of R59; R197 refuses it on ports A
and B. -/
def execCancel (p : Port) (slot gen : Nat) (s : State) : Result :=
  if p = .S then serve .S .cancel (bodyNum2 1 1) (slot, gen) ownServiceCancel false s
  else serve p .cancel (bodyNum2 1 1) (slot, gen) ownCancel false s

end Sys2Proof.Machine
end

