-- ==== Sys2Proof/Machine/Verification.lean ====
section
/-! DEFINITION. The verification scheduler (chapter 8): shares, cursors, credits, urgent orders, the interval expiry, and the
results of TAG. -/

namespace Sys2Proof.Machine

/-! ## Shares and cursors (R150 to R152) -/

/-- The first cell of crane X's share (R150). -/
def State.shareFirst (s : State) : Crane → Nat
  | .A => 0
  | .B => 24 * s.settings.split

/-- The size of crane X's share (R150). -/
def State.shareSize (s : State) : Crane → Nat
  | .A => 24 * s.settings.split
  | .B => cellCount - 24 * s.settings.split

/-- The cell at a position of crane X's share (R150). -/
def State.shareCell (s : State) (x : Crane) (i : Nat) : Nat := s.shareFirst x + i

/-- The cell is the source of a live VERIFY order (R151). -/
def State.verifyLive (s : State) (n : Nat) : Bool :=
  s.liveOrders.any (fun e => e.2.kind == .verify && e.2.source == .cell n)

/-- The cell's own state and bin let the cursor visit it (R151). -/
def State.visitable (s : State) (n : Nat) : Bool :=
  match (s.cell n).state with
  | .unverified => true
  | .empty => true
  | .occupied b => (s.bin b).order.isNone
  | .reserved _ => false
  | .suspect => false
  | .blocked => false

/-- The cursor search does not pass the cell over (R151). -/
def State.cursorTakes (s : State) (n : Nat) : Bool :=
  s.visitable n && s.zoneOk n &&
    (s.sched.wing != .held || s.sched.verifySet.contains (zoneOfCell n)) && !s.verifyLive n

/-- The position that the search from crane X's cursor gives (R151): from the cursor to the end of the share, then from 0. -/
def State.cursorSearch (s : State) (x : Crane) : Option Nat :=
  let p (i : Nat) : Bool := s.cursorTakes (s.shareCell x i)
  let at' := (s.schedCrane x).cursor
  (findUp p at' (s.shareSize x - at')).orElse (fun _ => findUp p 0 (min at' (s.shareSize x)))

/-- The cursor after a VERIFY created from position `i` (R152). -/
def State.cursorAfter (s : State) (x : Crane) (i : Nat) : Nat := if i + 1 < s.shareSize x then i + 1 else 0

/-- Both wrap marks set: the epoch advances and both marks clear (R152). -/
def State.advanceEpoch (s : State) : State :=
  if s.sched.a.wrap && s.sched.b.wrap then
    s.setSched
      { s.sched with
        epoch := s.sched.epoch + 1
        a := { s.sched.a with wrap := false }
        b := { s.sched.b with wrap := false } }
  else s

/-- The cursor is moved by the creation of a VERIFY from position `i`, and a wrap is marked (R152). -/
def State.moveCursor (s : State) (x : Crane) (i : Nat) : State :=
  let r := s.schedCrane x
  let n := s.cursorAfter x i
  (s.setSchedCrane x { r with cursor := n, wrap := r.wrap || decide (n ≤ r.cursor) }).advanceEpoch

/-- One of crane X's credits is spent; below 8 the lag flag is cleared (R153, R154). -/
def State.spendCredit (s : State) (x : Crane) : State :=
  let r := s.schedCrane x
  s.setSchedCrane x { r with credits := r.credits - 1, lag := if r.credits - 1 < 8 then false else r.lag }

/-- The VERIFY order of a cell (R44, R72, R154). -/
def verifyOrder (x : Crane) (n authority : Nat) : Order :=
  newOrder .verify .auto none (.cell n) none x .part authority none (cellLevel n)

/-- A VERIFY order created from position `i` of crane X's share: the cursor moves and a credit is spent (R152, R153). -/
def State.createVerify (s : State) (x : Crane) (i authority : Nat) : Option (State × Handle) :=
  match s.creationRefusal none .verify with
  | some _ => none
  | none =>
    match s.create (verifyOrder x (s.shareCell x i) authority) with
    | none => none
    | some (t, h) => some ((t.moveCursor x i).spendCredit x, h)

/-! ## Credits and the urgent order (R153, R154) -/

/-- A VERIFY order of authority 1 for crane X is live (R154). -/
def State.urgentLive (s : State) (x : Crane) : Bool :=
  s.liveOrders.any (fun e => e.2.kind == .verify && e.2.crane == x && e.2.authority == 1)

/-- The lag flag is set, and VLAG raised when it was clear (R154). -/
def State.setLag (s : State) (x : Crane) (cause : VlagCause) : State :=
  let r := s.schedCrane x
  let t := s.setSchedCrane x { r with lag := true }
  if r.lag then t else t.raise .S (.vlag x r.credits cause)

/-- The urgent order of crane X is attempted (R154). -/
def State.attemptUrgent (s : State) (x : Crane) : State :=
  if s.urgentLive x then s.setLag x .urgentLive
  else
    match s.cursorSearch x with
    | none => s
    | some i =>
      match s.createVerify x i 1 with
      | none => s.setLag x .tableFull
      | some (t, _) => t

/-- The interval expiry's treatment of one crane (R153). -/
def State.intervalCrane (s : State) (x : Crane) : State :=
  let r := s.schedCrane x
  if r.credits < 8 then
    let t := s.setSchedCrane x { r with credits := r.credits + 1 }
    if r.credits + 1 = 8 then t.attemptUrgent x else t
  else s.attemptUrgent x

/-- The interval timer is started again with the interval setting (R153). -/
def State.restartInterval (s : State) : State := s.setSched { s.sched with timer := s.settings.interval * 1000 }

/-- The verification interval timer expires (R153). -/
def execVerificationIntervalExpiry (s : State) : Result :=
  whenRunning s (fun s =>
    (evalCranes s ((s.restartInterval.intervalCrane .A).intervalCrane .B) false
      (decide (s.sched.a.credits < 8)) (decide (s.sched.b.credits < 8))).pump)

/-! ## TAG (R157 to R160) -/

/-- A matching TAG result: the stamp is set to the epoch and the unreadable count becomes 0 (R158). -/
def State.stampCell (s : State) (n : Nat) : State :=
  s.setCell n { s.cell n with stamp := some s.sched.epoch, unread := 0 }

/-- Registration of an UNREGISTERED bin in an UNVERIFIED cell (R158). -/
def State.registerBin (s : State) (n b : Nat) : State :=
  ((s.setBin b { s.bin b with place := .stored n, comps := List.replicate 16 .occupied }).cellTo n (.occupied b)).stampCell n

/-- UNREADABLE on a cell in OCCUPIED, EMPTY or UNVERIFIED (R159). -/
def State.unreadable (s : State) (n : Nat) : State :=
  if (s.cell n).unread = 0 then s.setCell n { s.cell n with unread := 1 } else s.enterSuspect n

/-- A tag that names bin `b'` in a cell OCCUPIED by another bin: the cell enters SUSPECT, and so does another cell in which
`b'` is STORED (R158). -/
def State.tagMismatch (s : State) (n b' : Nat) : State :=
  let t := s.enterSuspect n
  match (t.bin b').place with
  | .stored m => if m = n then t else t.enterSuspect m
  | .unregistered => t
  | .onCrane _ => t
  | .atBay _ _ => t
  | .misplaced => t

/-- A bin tag applied to a cell (R158). -/
def State.applyTag (s : State) (n b' : Nat) : State :=
  match (s.cell n).state with
  | .occupied b => if b = b' then s.stampCell n else s.tagMismatch n b'
  | .empty => s.enterSuspect n
  | .unverified => if (s.bin b').place = .unregistered then s.registerBin n b' else s.enterSuspect n
  | .reserved _ => s
  | .suspect => s
  | .blocked => s

/-- NO-BIN applied to a cell (R158). -/
def State.applyNoBin (s : State) (n : Nat) : State :=
  match (s.cell n).state with
  | .occupied _ => s.enterSuspect n
  | .empty => s.stampCell n
  | .unverified => (s.cellTo n .empty).stampCell n
  | .reserved _ => s
  | .suspect => s
  | .blocked => s

/-- The cell's state leaves a TAG result unapplied: RESERVED, SUSPECT or BLOCKED (R159). -/
def CellState.tagApplies : CellState → Bool
  | .unverified => true
  | .empty => true
  | .occupied _ => true
  | .reserved _ => false
  | .suspect => false
  | .blocked => false

/-- A TAG result applied to a cell by its state (R158, R159). -/
def State.applyResult (s : State) (n : Nat) (r : TagResult) : State :=
  if (s.cell n).state.tagApplies then
    match r with
    | .tag b' => s.applyTag n b'
    | .noBin => s.applyNoBin n
    | .unreadable => s.unreadable n
  else s

/-- The bins a TAG result can make MISPLACED: the cell's, and a tagged bin STORED elsewhere (R158, R160). -/
def tagBins (c : CellState) : TagResult → List Nat
  | .tag b' => c.bin.toList ++ [b']
  | .noBin => c.bin.toList
  | .unreadable => c.bin.toList

/-- The live orders of bins that a TAG took from STORED to MISPLACED fail (R160). `s` is the state before the result. -/
def State.failTagged (s t : State) (bins : List Nat) : State :=
  bins.foldl (fun u b =>
    if (s.bin b).place ≠ .misplaced ∧ (t.bin b).place = .misplaced then u.failMisplaced none b else u) t

/-- A report of crane X matched against its active order (R77): the order's slot and record. -/
def State.activeOrder (s : State) (c : Crane) (h : Handle) : Option Order :=
  if (s.crane c).active = some h then s.orderOf h else none

/-- TAG for crane X, its fields in bounds (R157). R77 gives the ACK to every report an ended indication, and R157's list gives it no
place: the model sends it first, before the cell (DESIGN CHOICE, log 9). -/
def State.tag (s : State) (c : Crane) (h : Handle) (r : TagResult) : State × Reply :=
  match s.activeOrder c h with
  | none => refuse s .orderState
  | some o =>
    match o.source.cellOf with
    | none => refuse s .orderState
    | some n =>
      if o.kind = .verify ∧ o.state = .dispatched then
        let t := s.failTagged (s.applyResult n r) (tagBins (s.cell n).state r)
        let u := t.endOrder h.slot .complete none
        (u, .ack ([.indication false, .num 2 n, .named (u.cell n).state.code,
          .indication (s.cell n).state.tagApplies] ++ optField (.num 2) (u.cell n).state.bin))
      else refuse s .orderState

def ownTag (p : Port) (a : TagArgs) (s : State) : State × Reply :=
  if okSlot a.slot && okResult a.result then onCrane p s (fun c => s.tag c ⟨a.slot, a.gen⟩ a.result)
  else refuse s .range

def execTag (p : Port) (slot gen : Nat) (result : TagResult) (s : State) : Result :=
  serve p .tag bodyTag ⟨slot, gen, result⟩ (ownTag p) false s

end Sys2Proof.Machine
end

