-- ==== Sys2Proof/Machine/Dispatcher.lean ====
section
/-! DEFINITION. The dispatcher (4.1 to 4.5): NEXT. -/

namespace Sys2Proof.Machine

/-! ## Selection (R70, R71) -/

/-- The older of two orders with their slots (R45). -/
def olderOf (a b : Nat × Order) : Nat × Order := if b.2.older a.2 then b else a

/-- The oldest of some orders (R45). -/
def oldest : List (Nat × Order) → Option (Nat × Order)
  | [] => none
  | e :: rest => some (rest.foldl olderOf e)

/-- The lowest effective authority number among some orders (R70). -/
def lowestAuthority : List (Nat × Order) → Nat
  | [] => 3
  | e :: rest => rest.foldl (fun m e => min m e.2.authority) e.2.authority

/-- The candidate set: the eligible orders of the lowest authority number (R70). -/
def State.candidates (s : State) (x : Crane) : List (Nat × Order) :=
  let l := s.eligibleOrders x
  l.filter (fun e => e.2.authority == lowestAuthority l)

/-- The candidates older than a given one (R71). -/
def olderThan (l : List (Nat × Order)) (h : Nat × Order) : List (Nat × Order) := l.filter (fun e => e.2.older h.2)

/-- The level preference (R71): the chosen slot, and the slots whose bypass count is raised. -/
def choose (l : List (Nat × Order)) (level : Nat) : Option (Nat × List Nat) :=
  match oldest l with
  | none => none
  | some o =>
    if o.2.level = level then some (o.1, [])
    else
      match oldest (l.filter (fun e => e.2.level == level)) with
      | none => some (o.1, [])
      | some h =>
        if (olderThan l h).all (fun e => decide (e.2.bypass < 3)) then
          some (h.1, (olderThan l h).map (fun e => e.1))
        else some (o.1, [])

/-- The bypass count of the order in a slot raised by one (R71). -/
def State.raiseBypass (s : State) (i : Nat) : State :=
  match (s.slot i).order with
  | none => s
  | some o => s.setOrder i (some { o with bypass := o.bypass + 1 })

/-! ## Dispatch (R74) -/

/-- The bays at a dispatch (R74): a FETCH takes the lowest EMPTY bay of its station, a STOW or MOVE makes its source bay
OUTBOUND. -/
def State.dispatchBay (s : State) (i : Nat) (o : Order) (h : Handle) : State :=
  match o.kind with
  | .fetch =>
    match o.station with
    | none => s
    | some st =>
      match s.emptyBayOf st with
      | none => s
      | some b => (s.bayTo st b (.inbound h)).setOrder i (some { o with destBay := some b })
  | .stow | .move =>
    match o.source, o.bin with
    | .bay st b, some n => s.bayTo st b (.outbound n)
    | _, _ => s
  | .verify => s

/-- The order in slot `i` becomes DISPATCHED. -/
def State.markDispatched (s : State) (i : Nat) : State :=
  match (s.slot i).order with
  | none => s
  | some o => s.setOrder i (some { o with state := .dispatched })

/-- The order in slot `i` is dispatched to crane X (R74). -/
def State.dispatch (s : State) (x : Crane) (i : Nat) : State :=
  match (s.slot i).order with
  | none => s
  | some o =>
    let h := s.handleAt i
    let t := ((s.dispatchBay i o h).markDispatched i).startTimer i
    t.setCrane x { t.crane x with active := some h, waiting := false }

/-! ## NEXT (R65 to R67, R72, R73, R75) -/

/-- The destination field of NEXT's order form: a cell, or a station and the destination bay, or absent (R75 item 8). -/
def Order.nextDest (o : Order) : Option Place :=
  match o.dest, o.destBay with
  | some (.station st), some b => some (.bay st b)
  | d, _ => d

/-- NEXT's answer in the order form (R75). -/
def orderForm (repeated : Bool) (h : Handle) (o : Order) : Reply :=
  .ack ([.named 0, .indication repeated, .handle h, .named o.kind.code, .named o.purpose.code, .named o.state.code] ++
    optField (.num 2) o.bin ++ [.place o.source] ++ optField .place o.nextDest ++
    [.num 1 o.level, .num 1 o.authority, flagField o.stalled])

/-- The order form for the order in a slot; NONE never arises, since the slot holds the order just chosen. -/
def State.orderFormAt (s : State) (repeated : Bool) (i : Nat) : Reply :=
  match (s.slot i).order with
  | some o => orderForm repeated (s.handleAt i) o
  | none => .ack [.named 1, .indication false, .num 1 0]

/-- NEXT answered in the NONE form (R73, R76): the waiting flag is set. -/
def State.noneForm (s : State) (x : Crane) : State × Reply :=
  (s.setCrane x { s.crane x with waiting := true },
    .ack [.named 1, .indication (s.crane x).orphan, .num 1 (s.queuedCount x)])

/-- Step 1 of R65. -/
def State.setLevel (s : State) (x : Crane) (level : Nat) : State :=
  s.setCrane x { s.crane x with lastLevel := level }

/-- Step 2 of R65 for one bay: a bay whose stow-wanted flag is set is evaluated. -/
def State.wantedBay (s : State) (st : Station) (b : Nat) : State :=
  if (s.bay st b).stowWanted then (s.autoStow st b).1 else s

/-- Step 2 of R65: bay 0 before bay 1. -/
def State.wantedBays (s : State) (x : Crane) : State :=
  (s.wantedBay (stationOf x) 0).wantedBay (stationOf x) 1

/-- The STOW of an orphan bin to a cell (R44, R62). -/
def State.orphanOrder (s : State) (x : Crane) (b n : Nat) : Order :=
  { newOrder .stow .auto (some b) (.crane x) (some (.cell n)) x .part 3 none (cellLevel n) with
    state := .loaded
    timer := some s.progressMs }

/-- The creation of an orphan stow for crane X's carried bin (R62). -/
def State.createOrphan (s : State) (x : Crane) : Option (State × Handle) :=
  match (s.crane x).carried with
  | none => none
  | some b =>
    match s.creationRefusal (some b) .stow with
    | some _ => none
    | none =>
      match s.homeScan x with
      | none => none
      | some n => s.create (s.orphanOrder x b n)

/-- Step 4 of R65 (R67): an orphan stow, or NONE with the orphan indication. -/
def State.nextOrphan (s : State) (x : Crane) : State × Reply :=
  match s.createOrphan x with
  | some (t, h) =>
    let u := t.setCrane x { t.crane x with waiting := false }
    (u, u.orderFormAt false h.slot)
  | none => s.noneForm x

/-- Step 6 of R65 (R72): the position of the VERIFY that crane X's credits allow and whose cell passes the tests. -/
def State.verifyPosition (s : State) (x : Crane) : Option Nat :=
  if (s.schedCrane x).credits = 0 then none
  else
    match s.cursorSearch x with
    | none => none
    | some i => if s.reachable x (verifyOrder x (s.shareCell x i) 3) then some i else none

/-- Steps 6 and 7 of R65: a new VERIFY dispatched, or NONE. -/
def State.nextVerify (s : State) (x : Crane) : State × Reply :=
  match s.verifyPosition x with
  | none => s.noneForm x
  | some i =>
    match s.createVerify x i 3 with
    | none => s.noneForm x
    | some (t, h) =>
      let u := t.dispatch x h.slot
      (u, u.orderFormAt false h.slot)

/-- Steps 5 to 7 of R65. -/
def State.nextSelect (s : State) (x : Crane) (level : Nat) : State × Reply :=
  match choose (s.candidates x) level with
  | some (i, raised) =>
    let t := (raised.foldl (fun u j => u.raiseBypass j) s).dispatch x i
    (t, t.orderFormAt false i)
  | none => s.nextVerify x

/-- NEXT for crane X, the level in bounds (R65). -/
def State.next (s : State) (x : Crane) (level : Nat) : State × Reply :=
  let t := (s.setLevel x level).wantedBays x
  match (t.crane x).active with
  | some h => (t.setCrane x { t.crane x with waiting := false }, t.orderFormAt true h.slot)
  | none => if (t.crane x).orphan then t.nextOrphan x else t.nextSelect x level

def ownNext (p : Port) (level : Nat) (s : State) : State × Reply :=
  if okLevel level then onCrane p s (fun c => s.next c level) else refuse s .range

def execNextWork (p : Port) (level : Nat) (s : State) : Result := serve p .next (bodyNum 1) level (ownNext p) false s

end Sys2Proof.Machine
end

