-- ==== Sys2Proof/Machine/Reports.lean ====
section
/-! DEFINITION. The crane reports (4.6): LOAD, DONE, UNABLE. -/

namespace Sys2Proof.Machine

/-- A report's handle names crane X's active order, at its slot (R77). -/
def withActive (s : State) (c : Crane) (h : Handle) (f : Order → State × Reply) : State × Reply :=
  match s.activeOrder c h with
  | none => refuse s .orderState
  | some o => f o

/-! ## LOAD (R78, R79) -/

/-- LOAD's ACK: the ended indication clear (R77), the state LOADED, the destination (R78). -/
def State.loadReply (s : State) (i : Nat) : Reply :=
  .ack ([.indication false, .named OrderState.loaded.code] ++
    optField .place ((s.slot i).order.bind (fun o => o.dest)))

/-- The order in slot `i` becomes LOADED, and its progress timer is restarted (R56, R78). -/
def State.markLoaded (s : State) (i : Nat) : State :=
  match (s.slot i).order with
  | none => s
  | some o => (s.setOrder i (some { o with state := .loaded })).startTimer i

/-- A STOW or MOVE just LOADED whose destination cell lies in a zone that is not IN-SERVICE is re-destined (R79). -/
def State.loadRedestine (s : State) (i : Nat) : State :=
  match (s.slot i).order with
  | none => s
  | some o => if o.kind.stows && o.destCell.any (fun n => !s.zoneOk n) then s.redestine i else s

/-- The end of a LOAD whose move has been made (R78). -/
def State.finishLoad (s : State) (i : Nat) : State × Reply :=
  let t := (s.markLoaded i).loadRedestine i
  (t, t.loadReply i)

/-- LOAD of a DISPATCHED order with a bin, by its source (R78). -/
def State.loadFrom (s : State) (c : Crane) (i : Nat) (o : Order) (b : Nat) : State × Reply :=
  match o.source with
  | .cell n =>
    if (s.cell n).state = .occupied b ∧ (s.bin b).place = .stored n then (s.loadFromCell c n b).finishLoad i
    else refuse s .cellState
  | .bay st bay =>
    if (s.bay st bay).state = .outbound b then (s.loadFromBay c st bay b).finishLoad i else refuse s .orderState
  | .crane _ => refuse s .orderState
  | .station _ => refuse s .orderState

/-- LOAD for crane X (R78). -/
def State.load (s : State) (c : Crane) (h : Handle) : State × Reply :=
  withActive s c h (fun o =>
    match o.state, o.bin with
    | .loaded, _ => (s, s.loadReply h.slot)
    | .dispatched, some b => s.loadFrom c h.slot o b
    | .dispatched, none => refuse s .orderState
    | .queued, _ => refuse s .orderState)

def ownLoad (p : Port) (a : Nat × Nat) (s : State) : State × Reply :=
  if okSlot a.1 then onCrane p s (fun c => s.load c ⟨a.1, a.2⟩) else refuse s .range

def execLoad (p : Port) (slot gen : Nat) (s : State) : Result :=
  serve p .load (bodyNum2 1 1) (slot, gen) (ownLoad p) false s

/-! ## DONE (R77, R80, R81) -/

/-- The bay that a LOADED FETCH is delivered to: its destination bay, INBOUND with its handle (R80; log 19). -/
def State.deliveryBay (s : State) (o : Order) (h : Handle) : Option (Station × Nat) :=
  match o.dest, o.destBay with
  | some (.station st), some b => if (s.bay st b).state = .inbound h then some (st, b) else none
  | _, _ => none

/-- DONE of a LOADED FETCH of bin `b` (R80). -/
def State.doneFetch (s : State) (c : Crane) (h : Handle) (o : Order) (b : Nat) : State × Reply :=
  match s.deliveryBay o h with
  | none => refuse s .orderState
  | some (st, bay) =>
    let keep := o.purpose == .ret || !(s.bin b).hasPending
    let t := (s.deliverToBay c st bay b keep).endOrder h.slot .complete none
    (t.raise .C (.arrive b st bay o.loan),
      .ack [.indication false, .final .complete, .num 1 (stationCode st), .num 1 bay])

/-- DONE of a LOADED STOW or MOVE of bin `b` (R81). -/
def State.doneStow (s : State) (c : Crane) (h : Handle) (o : Order) (b : Nat) (cell : Option Nat) : State × Reply :=
  match o.destCell with
  | none => refuse s .orderState
  | some n =>
    if cell ≠ some n then refuse s .orderState
    else if (s.cell n).state ≠ .reserved h then refuse s .cellState
    else ((s.deliverToCell c n b).endOrder h.slot .complete none, .ack [.indication false, .final .complete, .num 2 n])

/-- DONE for crane X (R77, R80, R81). -/
def State.doneReport (s : State) (c : Crane) (h : Handle) (cell : Option Nat) : State × Reply :=
  match s.activeOrder c h with
  | some o =>
    match o.state, o.kind, o.bin with
    | .loaded, .fetch, some b => if cell.isSome then refuse s .orderState else s.doneFetch c h o b
    | .loaded, .stow, some b => s.doneStow c h o b cell
    | .loaded, .move, some b => s.doneStow c h o b cell
    | _, _, _ => refuse s .orderState
  | none => if (s.crane c).lastCompleted = some h then (s, .ack [.indication true]) else refuse s .orderState

def ownDone (p : Port) (a : ReportArgs) (s : State) : State × Reply :=
  if okSlot a.slot && okOptCell a.cell then onCrane p s (fun c => s.doneReport c ⟨a.slot, a.gen⟩ a.cell)
  else refuse s .range

def execDone (p : Port) (slot gen : Nat) (cell : Option Nat) (s : State) : Result :=
  serve p .done bodyDone ⟨slot, gen, 0, cell⟩ (ownDone p) false s

/-! ## UNABLE (R82 to R87) -/

/-- UNABLE's ACK: the ended indication clear, then the final state and an absent destination, or an absent final state and
the destination (R82; log 9). -/
def unableEnded (f : FinalState) : Reply := .ack [.indication false, .present, .final f, .absent]

/-- UNABLE's ACK when the order goes on (R82, R84). -/
def State.unableOn (s : State) (i : Nat) : Reply :=
  .ack ([.indication false, .absent] ++ optField .place ((s.slot i).order.bind (fun o => o.dest)))

/-- An auto-stow from a bay that ends before its load is still wanted (R87). -/
def State.stillWanted (s : State) (o : Order) : State :=
  match o.kind, o.purpose, o.state, o.source with
  | .stow, .auto, .dispatched, .bay st b => s.setStowWanted st b true
  | _, _, _, _ => s

/-- The order in slot `i` ends by UNABLE (R55, R87). -/
def State.unableEnd (s : State) (i : Nat) (o : Order) (f : FinalState) (x : EndOutcome) : State × Reply :=
  ((s.endOrder i f (some x)).stillWanted o, unableEnded f)

/-- UNABLE(EMPTY-SOURCE) (R83). -/
def State.unableEmpty (s : State) (i : Nat) (o : Order) (cell : Option Nat) : State × Reply :=
  match o.source with
  | .cell n =>
    if o.kind = .verify ∨ cell ≠ some n then refuse s .orderState
    else (s.enterSuspect n).unableEnd i o .failed .failed
  | .bay _ _ => refuse s .orderState
  | .crane _ => refuse s .orderState
  | .station _ => refuse s .orderState

/-- UNABLE(OCCUPIED-DEST) with the destination present (R84). -/
def State.unableOccupied (s : State) (i : Nat) (o : Order) (cell : Option Nat) : State × Reply :=
  match o.destCell with
  | none => refuse s .orderState
  | some n =>
    if !o.kind.stows || cell ≠ some n then refuse s .orderState
    else
      let t := ((s.enterSuspect n).redestine i).startTimer i
      (t, t.unableOn i)

/-- The cells that UNABLE(BLOCKED) may name (R85). -/
def Order.blockable (o : Order) : List Nat :=
  match o.state with
  | .dispatched => o.source.cellOf.toList ++ o.destCell.toList
  | .loaded => o.destCell.toList
  | .queued => []

/-- The slot of the live order a cell is reserved for, other than slot `i` (R85). -/
def State.otherReserver (s : State) (n i : Nat) : Option Nat :=
  match (s.cell n).state.destOf with
  | none => none
  | some h => if h.slot ≠ i ∧ (s.orderOf h).isSome then some h.slot else none

/-- A named cell enters BLOCKED: another order of the bin made MISPLACED fails, another order that reserved the cell is
re-destined (R85). -/
def State.blockNamed (s : State) (i n : Nat) : State :=
  let t := s.enterBlocked n
  let u :=
    match (s.cell n).state.bin with
    | some b => t.failMisplaced (some i) b
    | none => t
  match s.otherReserver n i with
  | some j => u.redestine j
  | none => u

/-- UNABLE(BLOCKED) (R85). -/
def State.unableBlocked (s : State) (i : Nat) (o : Order) (cell : Option Nat) : State × Reply :=
  match cell with
  | none => s.unableEnd i o .failed .failed
  | some n => if o.blockable.contains n then (s.blockNamed i n).unableEnd i o .failed .failed else refuse s .orderState

/-- UNABLE for an active order that is DISPATCHED (R82). -/
def State.unableDispatched (s : State) (i : Nat) (o : Order) (r : UnableReason) (cell : Option Nat) : State × Reply :=
  match r with
  | .emptySource => s.unableEmpty i o cell
  | .occupiedDest => refuse s .orderState
  | .blocked => s.unableBlocked i o cell
  | .mechanical => s.unableEnd i o .failed .failed
  | .fire => s.unableEnd i o .cancelled .cancelledFire

/-- UNABLE for an active order that is LOADED (R82). -/
def State.unableLoaded (s : State) (i : Nat) (o : Order) (r : UnableReason) (cell : Option Nat) : State × Reply :=
  match r, o.dest with
  | .emptySource, _ => refuse s .orderState
  | .fire, _ => refuse s .orderState
  | .mechanical, _ => s.unableEnd i o .failed .failed
  | .occupiedDest, some _ => s.unableOccupied i o cell
  | .blocked, some _ => s.unableBlocked i o cell
  | .occupiedDest, none => s.unableEnd i o .failed .failed
  | .blocked, none => s.unableEnd i o .failed .failed

/-- UNABLE for crane X (R77, R82). -/
def State.unable (s : State) (c : Crane) (h : Handle) (r : UnableReason) (cell : Option Nat) : State × Reply :=
  withActive s c h (fun o =>
    match o.state with
    | .dispatched => s.unableDispatched h.slot o r cell
    | .loaded => s.unableLoaded h.slot o r cell
    | .queued => refuse s .orderState)

def ownUnable (p : Port) (a : ReportArgs) (s : State) : State × Reply :=
  match unableReasonOf a.reason with
  | none => refuse s .range
  | some r =>
    if okSlot a.slot && okOptCell a.cell then onCrane p s (fun c => s.unable c ⟨a.slot, a.gen⟩ r a.cell)
    else refuse s .range

def execUnable (p : Port) (slot gen reason : Nat) (cell : Option Nat) (s : State) : Result :=
  serve p .unable bodyUnable ⟨slot, gen, reason, cell⟩ (ownUnable p) false s

/-! ## The progress timer's expiry (R58) -/

/-- The timer of the order in slot `i` expires (R58): it stands stopped, the stalled flag is set, and STALL is raised to port
S. -/
def State.stall (s : State) (i : Nat) (o : Order) : State :=
  (s.setOrder i (some { o with timer := none, stalled := true })).raise .S
    (.stall (s.handleAt i) o.kind o.state o.crane o.bin)

/-- The progress timer of the order in slot `i` expires; a timer that does not run does not expire (log 2). -/
def execProgressTimerExpiry (slot : Fin 64) (s : State) : Result :=
  whenRunning s (fun s =>
    match (s.slot slot).order with
    | none => s
    | some o => if o.timer.isSome then finish s (s.stall slot o) else s)

end Sys2Proof.Machine
end

