-- ==== Sys2Proof/Machine/Fire.lean ====
section
/-! DEFINITION. Fire zones, shutters and signal lines (chapter 9): LOOP_SAMPLE, CLEARANCE_TIMER_EXPIRY, TRAVEL_TIMER_EXPIRY,
LIMIT_EDGE, FIRE_RESET_INPUT, FRST, SOPEN, GENERATOR_TICK, and the hand-off of a position sample. -/

namespace Sys2Proof.Machine

/-! ## Zone states -/

/-- A change of zone state with its ZONE notice to all ports (R166, R168). -/
def State.zoneTo (s : State) (z : Nat) (x : ZoneState) : State :=
  (s.setZone z { s.zone z with state := x }).raiseAll [.C, .A, .B, .S] (.zone z x)

/-- Every shutter of zone z is in a state. -/
def State.allShutters (s : State) (z : Nat) (x : ShutterState) : Bool :=
  (zoneShutters z).all (fun k => (s.shutter k).state == x)

/-- Some shutter of zone z is JAMMED. -/
def State.anyJammed (s : State) (z : Nat) : Bool := (zoneShutters z).any (fun k => (s.shutter k).state == .jammed)

/-- A zone whose last shutter became OPEN returns to service (R173): IN-SERVICE, its rail unsealed, and DEGRADED where its
loop is in fault. -/
def State.returnToService (s : State) (z : Nat) : State :=
  let t := (s.zoneTo z .inService).unsealZone z
  if (t.loop z).filtered.isFault then t.zoneTo z .degraded else t

/-- A zone follows a shutter of it that became CLOSED (R171). -/
def State.zoneOnClosed (s : State) (z : Nat) : State :=
  if ((s.zone z).state = .sealing ∨ (s.zone z).state = .obstructed) ∧ s.allShutters z .closed then s.zoneTo z .sealed else s

/-- A zone follows a shutter of it that became OPEN (R173). -/
def State.zoneOnOpen (s : State) (z : Nat) : State :=
  if (s.zone z).state = .recovering ∧ s.allShutters z .open then s.returnToService z else s

/-- A zone follows a shutter of it that became JAMMED (R171). -/
def State.zoneOnJammed (s : State) (z : Nat) : State :=
  if (s.zone z).state = .sealing ∨ (s.zone z).state = .sealed then s.zoneTo z .obstructed else s

/-! ## Shutter states -/

/-- The travel time in milliseconds (R174). -/
def State.travelMs (s : State) : Nat := s.settings.travel * 1000

/-- The travel timer on entry to a state: it runs in CLOSING and OPENING (R174). -/
def State.travelTimer (s : State) : ShutterState → Option Nat
  | .closing => some s.travelMs
  | .opening => some s.travelMs
  | .open => none
  | .hold => none
  | .closed => none
  | .jammed => none

/-- The record of shutter k after a change of state, with its SHUT notice to ports A, B and S (R174, R180). -/
def State.shutterTo (s : State) (k : Nat) (x : ShutterState) (cause : ShutCause) : State :=
  (s.setShutter k { s.shutter k with state := x, timer := s.travelTimer x }).raiseAll [.A, .B, .S] (.shut k x cause)

/-- A change of shutter k's state with what it does to the zones on its two sides (R171, R173, R177). -/
def State.moveShutter (s : State) (k : Nat) (x : ShutterState) (cause : ShutCause) : State :=
  let t := s.shutterTo k x cause
  match x with
  | .closed => (t.zoneOnClosed k).zoneOnClosed (k + 1)
  | .open => (t.zoneOnOpen k).zoneOnOpen (k + 1)
  | .jammed => (t.zoneOnJammed k).zoneOnJammed (k + 1)
  | .hold => t
  | .closing => t
  | .opening => t

/-- Shutter k enters CLOSING, and CLOSED at once where its closed-limit is asserted (R175). -/
def State.enterClosing (s : State) (k : Nat) (cause : ShutCause) : State :=
  let t := s.moveShutter k .closing cause
  if (t.shutter k).closedLimit then t.moveShutter k .closed .limit else t

/-- Shutter k enters OPENING, and OPEN at once where its open-limit is asserted (R175). -/
def State.enterOpening (s : State) (k : Nat) (cause : ShutCause) : State :=
  let t := s.moveShutter k .opening cause
  if (t.shutter k).openLimit then t.moveShutter k .open .limit else t

/-- Shutter k takes the start of a demand (R175). -/
def State.takeDemand (s : State) (k : Nat) : State :=
  match (s.shutter k).state with
  | .open => s.moveShutter k .hold .demand
  | .opening => s.moveShutter k .hold .demand
  | .hold => s
  | .closing => s
  | .closed => s
  | .jammed => s

/-- Shutter k takes the end of the demand by a fire reset (R175). -/
def State.endDemand (s : State) (k : Nat) : State :=
  match (s.shutter k).state with
  | .hold => s.enterOpening k .reset
  | .closing => s.enterOpening k .reset
  | .closed => s.enterOpening k .reset
  | .open => s
  | .opening => s
  | .jammed => s

/-! ## The fate of orders (R181, R182) -/

/-- A cell lies in zone z. -/
def inZone (z : Nat) (n : Nat) : Bool := zoneOfCell n == z

/-- The fate of the order in slot `i` when zone z goes into alarm (R181). -/
def State.fateOne (s : State) (z i : Nat) : State :=
  match (s.slot i).order with
  | none => s
  | some o =>
    match o.kind, o.state with
    | .fetch, .queued =>
      if o.cells.any (inZone z) || o.station.any (fun st => zoneOfStation st == z) then
        s.endOrder i .cancelled (some .cancelledFire)
      else s
    | .verify, .queued => if o.cells.any (inZone z) then s.endOrder i .cancelled none else s
    | .stow, .queued | .stow, .loaded | .move, .queued | .move, .loaded =>
      if o.destCell.any (inZone z) then s.redestine i else s
    | _, _ => s

/-- The fire order fate, one order at a time in ascending slot number (R182). -/
def State.orderFate (s : State) (z : Nat) : State := slotNumbers.foldl (fun s i => s.fateOne z i) s

/-! ## Alarm (R167, R168) -/

/-- The nearest segment outside zone z on crane X's station side, absent where the zone holds the station (R168). -/
def evacSegment (z : Nat) : Crane → Option Nat
  | .A => if z = 0 then none else some (zoneFirst z - 1)
  | .B => if z = 3 then none else some (zoneLast z + 1)

/-- EVAC to the port of crane X, when X holds a segment of zone z (R168). -/
def State.raiseEvac (s : State) (z : Nat) (c : Crane) : State :=
  if (zoneSegments z).any (s.holds c) then s.raise (portOf c) (.evac z (evacSegment z c)) else s

/-- The clearance time in milliseconds (R167). -/
def State.clearanceMs (s : State) : Nat := s.settings.clearance * 1000

/-- Zone z enters CLEARING (R167), its steps in order. -/
def State.alarm (s : State) (z : Nat) : State :=
  let s1 := (s.setZone z { s.zone z with state := .clearing, latch := true }).sealZone z
  let s2 := (zoneShutters z).foldl (fun t k => t.takeDemand k) s1
  let s3 := s2.setZone z { s2.zone z with timer := some s2.clearanceMs }
  let s4 := s3.orderFate z
  ((s4.raiseEvac z .A).raiseEvac z .B).raiseAll [.C, .A, .B, .S] (.zone z .clearing)

/-! ## Loops (R164, R165, R167, R169) -/

/-- The raw class of a loop value: the first row of R164 that it meets. -/
def State.rawClass (s : State) (value : Nat) (manual : Bool) : LoopClass :=
  if manual then .alarm
  else if value ≤ s.settings.shortTh then .shortFault
  else if s.settings.openTh ≤ value then .openFault
  else if s.settings.alarmTh ≤ value then .alarm
  else .normal

/-- The debounce of a raw class (R165). -/
def Loop.debounce (l : Loop) (raw : LoopClass) (need : Nat) : Loop :=
  if raw = l.filtered then { l with candidate := none, count := 0 }
  else if l.candidate = some raw then
    if need ≤ l.count + 1 then { l with filtered := raw, candidate := none, count := 0 }
    else { l with count := l.count + 1 }
  else { l with candidate := some raw, count := 1 }

/-- A zone takes a changed filtered class of its loop (R167, R169). -/
def State.takeClass (s : State) (z : Nat) (x : LoopClass) : State :=
  match x, (s.zone z).state with
  | .alarm, .inService => s.alarm z
  | .alarm, .degraded => s.alarm z
  | .alarm, .recovering => s.alarm z
  | .openFault, .inService => s.zoneTo z .degraded
  | .shortFault, .inService => s.zoneTo z .degraded
  | .normal, .degraded => s.zoneTo z .inService
  | _, _ => s

/-- A sample of loop z (R164, R165). -/
def State.sampleLoop (s : State) (z value : Nat) (manual : Bool) : State :=
  let raw := s.rawClass value manual
  let old := s.loop z
  let new := { old.debounce raw s.settings.debounce with lastValue := some value, lastRaw := some raw }
  let t := (s.setManual manual).setLoop z new
  if new.filtered = old.filtered then t else t.takeClass z new.filtered

def execLoopSample (z : Fin 4) (value : Nat) (manual : Bool) (s : State) : Result :=
  whenRunning s (fun s => finish s (s.sampleLoop z value manual))

/-! ## The clearance expiry (R170) -/

/-- Crane X is cut if its last touched segments include a segment of zone z (R170). -/
def State.cutCrane (s : State) (z : Nat) (c : Crane) : State :=
  if (s.touched c).any (fun n => zoneOfSegment n == z) then s.latchTrip c .fire else s

/-- The zone after the clearance period: SEALING, then SEALED or OBSTRUCTED where their conditions hold (R170). -/
def State.endClearance (s : State) (z : Nat) : State :=
  let t := (s.setZone z { s.zone z with timer := none }).zoneTo z .sealing
  if t.allShutters z .closed then t.zoneTo z .sealed
  else if t.anyJammed z then t.zoneTo z .obstructed
  else t

def execClearanceTimerExpiry (z : Fin 4) (s : State) : Result :=
  whenRunning s (fun s =>
    if (s.zone z).state = .clearing ∧ (s.zone z).timer.isSome then
      finish s (((s.cutCrane z .A).cutCrane z .B).endClearance z)
    else s)

/-! ## Fire reset (R172) -/

/-- The demand on shutter k ends unless the zone on its other side demands it (R172 step 3). -/
def State.releaseDemand (s : State) (k : Nat) : State := if s.demanded k then s else s.endDemand k

/-- Zone z takes a fire reset (R172). -/
def State.takeReset (s : State) (z : Nat) : State :=
  let s1 := (s.setZone z { s.zone z with latch := false }).zoneTo z .recovering
  let s2 := (zoneShutters z).foldl (fun t k => t.releaseDemand k) s1
  s2.zoneOnOpen z

/-- The zone is SEALED or OBSTRUCTED (R172). -/
def State.resettable (s : State) (z : Nat) : Bool := (s.zone z).state == .sealed || (s.zone z).state == .obstructed

/-- A fire reset offered to zone z (R172). -/
def State.offerReset (s : State) (z : Nat) : State :=
  if s.resettable z && (s.loop z).filtered == .normal then s.takeReset z else s

/-- A rising edge of the fire reset input (R172). -/
def execFireResetInput (s : State) : Result :=
  whenRunning s (fun s => finish s (zoneNumbers.foldl (fun t z => t.offerReset z) s))

def ownFrst (z : Nat) (s : State) : State × Reply :=
  if !okZone z then refuse s .range
  else if !s.resettable z then refuseDetail s .condition detailState
  else if (s.loop z).filtered ≠ .normal then refuseDetail s .condition detailLoop
  else
    let t := s.takeReset z
    (t, .ack [.named (t.zone z).state.code])

def execFrst (p : Port) (zone : Nat) (s : State) : Result := serve p .frst (bodyNum 1) zone ownFrst false s

/-! ## Travel, limits, SOPEN (R177 to R179) -/

def execTravelTimerExpiry (k : Fin 3) (s : State) : Result :=
  whenRunning s (fun s =>
    if (s.shutter k).timer.isSome ∧ ((s.shutter k).state = .closing ∨ (s.shutter k).state = .opening) then
      finish s (s.moveShutter k .jammed .travel)
    else s)

/-- A crane whose permit is on and whose last touched segments span shutter k is tripped for BARRIER (R178). -/
def State.tripSpanning (s : State) (k : Nat) (c : Crane) : State :=
  if (s.crane c).permit && s.touchSpans c k then s.latchTrip c .barrier else s

/-- A limit edge on a shutter that is not driven: it is JAMMED (R178). -/
def State.drift (s : State) (k : Nat) : State := s.moveShutter k .jammed .drift

/-- The level last seen of a limit input (R174). -/
def Shutter.limit (r : Shutter) : LimitSwitch → Bool
  | .closedLimit => r.closedLimit
  | .openLimit => r.openLimit

/-- A limit input's level seen. -/
def Shutter.withLimit (r : Shutter) (i : LimitSwitch) (level : Bool) : Shutter :=
  match i with
  | .closedLimit => { r with closedLimit := level }
  | .openLimit => { r with openLimit := level }

/-- An edge of a limit input of shutter k, by the shutter's state (R177, R178). -/
def State.limitEdge (s : State) (k : Nat) (i : LimitSwitch) (level : Bool) : State :=
  let t := s.setShutter k ((s.shutter k).withLimit i level)
  match (s.shutter k).state with
  | .closing => if i = .closedLimit ∧ level = true then t.moveShutter k .closed .limit else t
  | .opening => if i = .openLimit ∧ level = true then t.moveShutter k .open .limit else t
  | .open => ((t.drift k).tripSpanning k .A).tripSpanning k .B
  | .hold => ((t.drift k).tripSpanning k .A).tripSpanning k .B
  | .closed => t.drift k
  | .jammed => t

/-- A limit input of shutter k takes a level; the level last seen again is no edge. -/
def execLimitEdge (k : Fin 3) (i : LimitSwitch) (level : Bool) (s : State) : Result :=
  whenRunning s (fun s => if (s.shutter k).limit i = level then s else finish s (s.limitEdge k i level))

/-- SOPEN for shutter k (R179). -/
def State.sopen (s : State) (k : Nat) : State × Reply :=
  let taken (t : State) : State × Reply := (t, .ack [.named (t.shutter k).state.code])
  match (s.shutter k).state with
  | .jammed => if s.demanded k then taken (s.enterClosing k .service) else taken (s.enterOpening k .service)
  | .closed => if s.demanded k then refuseDetail s .condition detailState else taken (s.enterOpening k .service)
  | .open => refuseDetail s .condition detailState
  | .hold => refuseDetail s .condition detailState
  | .closing => refuseDetail s .condition detailState
  | .opening => refuseDetail s .condition detailState

def ownSopen (k : Nat) (s : State) : State × Reply := if okShutter k then s.sopen k else refuse s .range

def execSopen (p : Port) (shutter : Nat) (s : State) : Result := serve p .sopen (bodyNum 1) shutter ownSopen false s

/-! ## The hand-off of a position sample (R101 step 5, R171, R176) -/

/-- The clearance condition of shutter k (R176). -/
def State.clearanceHolds (s : State) (k : Nat) : Bool :=
  !s.touchSpans .A k && !s.touchSpans .B k &&
    (!((s.zone k).state == .clearing || (s.zone (k + 1)).state == .clearing) ||
      (!s.straddles .A k && !s.straddles .B k))

/-- A SEALING zone becomes OBSTRUCTED (R171). -/
def State.obstruct (s : State) (z : Nat) : State := if (s.zone z).state = .sealing then s.zoneTo z .obstructed else s

/-- Crane X's new envelope handed to shutter k (R171, R176). -/
def State.handShutter (s : State) (c : Crane) (k : Nat) : State :=
  if (s.shutter k).state = .hold then
    if s.clearanceHolds k then s.enterClosing k .clear
    else if s.touchSpans c k ∧ (s.crane c).dN8 = 0 then (s.obstruct k).obstruct (k + 1)
    else s
  else s

/-- Crane X's new envelope handed to the fire zone controller (R101 step 5). -/
def State.handOff (s : State) (c : Crane) : State := shutterNumbers.foldl (fun t k => t.handShutter c k) s

/-! ## Generators (R184) -/

/-- A generator's phase after a tick (R184). -/
def GenPhase.tick (g : GenPhase) (period : Nat) : GenPhase :=
  if g.t + 1 < period then { g with t := g.t + 1 } else { t := 0, odd := !g.odd }

/-- Generator k takes a tick. -/
def State.tickGen (s : State) (k : Nat) : State := s.setGen k ((s.gen k).tick (s.genSettings k).period)

def execGeneratorTick (s : State) : Result :=
  whenRunning s (fun s => [0, 1, 2, 3].foldl (fun t k => t.tickGen k) s)

end Sys2Proof.Machine
end

