-- ==== Sys2Proof/Machine/Position.lean ====
section
/-! DEFINITION. Crane position and the travel envelope (5.2, 5.3): INPUT_EXCURSION, FILTER_WINDOW, POSITION_SAMPLE. -/

namespace Sys2Proof.Machine

/-! ## Input filters (R91) -/

/-- The raw input takes a level (R91): a level opposite to the filtered one begins an excursion under the present window; the
filtered level again discards the excursion. -/
def Filter.take (f : Filter) (level : Bool) (window : Nat) : Filter :=
  if level = f.filtered then { f with raw := level, excursion := none }
  else
    match f.excursion with
    | some _ => { f with raw := level }
    | none => { f with raw := level, excursion := some window }

/-- The filter at the end of its window: the filtered level takes the new value (R91). -/
def Filter.settle (f : Filter) : Filter :=
  match f.excursion with
  | some _ => { f with filtered := !f.filtered, excursion := none }
  | none => f

/-- One filter of a crane. -/
def Filters.get (f : Filters) : EncInput → Filter
  | .phase1 => f.phase1
  | .phase2 => f.phase2
  | .index => f.index
  | .home => f.home

/-- One filter of a crane changed. -/
def Filters.put (f : Filters) (i : EncInput) (x : Filter) : Filters :=
  match i with
  | .phase1 => { f with phase1 := x }
  | .phase2 => { f with phase2 := x }
  | .index => { f with index := x }
  | .home => { f with home := x }

/-- Crane X's filters. -/
def State.setFilters (s : State) (c : Crane) (f : Filters) : State := s.setCrane c { s.crane c with filters := f }

def execInputExcursion (c : Crane) (i : EncInput) (level : Bool) (s : State) : Result :=
  whenRunning s (fun s =>
    let f := (s.crane c).filters
    s.setFilters c (f.put i ((f.get i).take level (s.craneSettings c).filterWindow)))

/-! ## The counter (R92) -/

/-- How the filtered phase pair changed (R92). -/
inductive PhaseStep where
  | none | forward | backward | illegal
deriving DecidableEq, Repr

/-- The place of a pair (phase 1, phase 2) in the forward cycle (0,0), (1,0), (1,1), (0,1) (R92). -/
def pairPlace : Bool → Bool → Nat
  | false, false => 0
  | true, false => 1
  | true, true => 2
  | false, true => 3

/-- The change from one pair to another (R92). -/
def phaseStep (a b a' b' : Bool) : PhaseStep :=
  match (pairPlace a' b' + 4 - pairPlace a b) % 4 with
  | 0 => .none
  | 1 => .forward
  | 3 => .backward
  | _ => .illegal

/-- The counter and the crane take a change of the phase pair (R92). -/
def State.phaseChange (s : State) (c : Crane) (x : PhaseStep) : State :=
  match x with
  | .none => s
  | .forward => s.setCrane c { s.crane c with counter := (s.crane c).counter + 1 }
  | .backward => s.setCrane c { s.crane c with counter := (s.crane c).counter - 1 }
  | .illegal => s.tripUnreference c .encoder

/-- The windows of both phase filters, or of one, end; the counter follows the new pair (R91, R92). -/
def State.settlePhases (s : State) (c : Crane) (one two : Bool) : State :=
  let f := (s.crane c).filters
  let f1 := if one then f.phase1.settle else f.phase1
  let f2 := if two then f.phase2.settle else f.phase2
  (s.setFilters c { f with phase1 := f1, phase2 := f2 }).phaseChange c
    (phaseStep f.phase1.filtered f.phase2.filtered f1.filtered f2.filtered)

/-! ## Home and index (R93, R94) -/

/-- A rising home edge captures the reference (R93); the permit is evaluated again (R104). -/
def State.captureHome (s : State) (c : Crane) : State :=
  (s.setCrane c
    { s.crane c with
      ref := some { nHome := (s.crane c).counter, phase := none, x := (s.craneSettings c).home } }).refreshPermit c

/-- The deviation of an index edge (R94): the counter's change since the phase was stored, reduced modulo CPR to the residue
nearest to 0. -/
def indexDeviation (counter phase : Counter) (cpr : Nat) : Int :=
  let r := (counter - phase).toInt % (cpr : Int)
  if ((cpr / 2 : Nat) : Int) < r then r - cpr else r

/-- A rising index edge (R94). -/
def State.indexEdge (s : State) (c : Crane) : State :=
  match (s.crane c).ref with
  | none => s
  | some r =>
    match r.phase with
    | none => s.setCrane c { s.crane c with ref := some { r with phase := some (s.crane c).counter } }
    | some p =>
      if 4 < (indexDeviation (s.crane c).counter p (s.craneSettings c).cpr).natAbs then s.tripUnreference c .slip else s

/-- The window of the index or home filter ends; a rising edge acts (R91, R93, R94). -/
def State.settleEdge (s : State) (c : Crane) (i : EncInput) (act : State → State) : State :=
  let f := (s.crane c).filters
  let g := (f.get i).settle
  let t := s.setFilters c (f.put i g)
  if (f.get i).filtered = false ∧ g.filtered = true then act t else t

/-- The end of a filter window (R91 to R94). -/
def State.filterWindow (s : State) (c : Crane) : FilterEnd → State
  | .phase1 => s.settlePhases c true false
  | .phase2 => s.settlePhases c false true
  | .bothPhases => s.settlePhases c true true
  | .index => s.settleEdge c .index (fun t => t.indexEdge c)
  | .home => s.settleEdge c .home (fun t => t.captureHome c)

def execFilterWindow (c : Crane) (which : FilterEnd) (s : State) : Result :=
  whenRunning s (fun s => finish s (s.filterWindow c which))

/-! ## The position sample (R95 to R101) -/

/-- The position of a counter (R95): X_home plus D·G / 65,536 rounded to nearest. -/
def positionOf (counter nHome : Counter) (q : CraneSettings) : Int :=
  (q.home : Int) + divNearest ((counter - nHome).toInt * q.gain) 65536

/-- The steps of R95, for a crane REFERENCED at the start of the sample. -/
def State.samplePosition (s : State) (c : Crane) : State :=
  match (s.crane c).ref with
  | none => s
  | some r =>
    let x := positionOf (s.crane c).counter r.nHome (s.craneSettings c)
    if x < -2000 ∨ 102799 < x then s.tripUnreference c .positionRange
    else s.setCrane c { s.crane c with ref := some { r with x := x } }

/-- The direction of a change of the counter (R96). -/
def directionOf (d : Int) : Direction := if 0 < d then .east else if d < 0 then .west else .none

/-- The speed of a change of the counter over eight samples (R96). -/
def speedOf (d : Int) (gain : Nat) : Nat := min (d.natAbs * gain * 125 / 131072) 8000

/-- The steps of R96: ΔN8, the history, the speed and the direction. -/
def State.sampleSpeed (s : State) (c : Crane) : State :=
  let r := s.crane c
  let d := (r.counter - r.history.headD 0).toInt
  s.setCrane c
    { r with
      dN8 := d
      history := r.history.drop 1 ++ [r.counter]
      speed := speedOf d (s.craneSettings c).gain
      direction := directionOf d }

/-- The speed limit (R97). -/
def State.speedLimit (s : State) (c : Crane) : Nat :=
  if (s.crane c).ref.isSome ∧ (s.crane c).creep = false then (s.craneSettings c).vMax * 11 / 10
  else (s.craneSettings c).creepMax

/-- The step of R97. -/
def State.sampleLimit (s : State) (c : Crane) : State :=
  if s.speedLimit c < (s.crane c).speed then s.latchTrip c .overspeed else s

/-- The margin of a speed (R98). -/
def marginOf (v : Nat) (q : CraneSettings) : Nat :=
  min (divCeil (v * v) (2 * q.aBrake) + divCeil (v * q.tReact) 1000 + q.mFixed) 20000

/-- The step of R98. -/
def State.sampleMargin (s : State) (c : Crane) : State :=
  s.setCrane c { s.crane c with margin := marginOf (s.crane c).speed (s.craneSettings c) }

/-- The crane body's half-length (R90, R99). -/
def halfLength : Int := 1100

/-- The envelope of a REFERENCED crane (R99). -/
def envelopeOf (x : Int) (d : Direction) (m mFixed : Int) : Nat × Nat :=
  match d with
  | .east => (clampRail (x - halfLength - mFixed), clampRail (x + halfLength + m))
  | .west => (clampRail (x - halfLength - m), clampRail (x + halfLength + mFixed))
  | .none => (clampRail (x - halfLength - mFixed), clampRail (x + halfLength + mFixed))

/-- The envelope of an UNREFERENCED crane (R100), from the first and last segment of its holding. -/
def unreferencedEnvelope (c : Crane) (ends : Option (Nat × Nat)) : Nat × Nat :=
  match c, ends with
  | .A, some (_, top) => (0, 2400 * (top + 1) - 1)
  | .A, none => (0, 2399)
  | .B, some (bot, _) => (2400 * bot, railEnd)
  | .B, none => (98400, railEnd)

/-- The crane's envelope at this sample (R99, R100). -/
def State.envelope (s : State) (c : Crane) : Nat × Nat :=
  match (s.crane c).ref with
  | some r => envelopeOf r.x (s.crane c).direction (s.crane c).margin (s.craneSettings c).mFixed
  | none => unreferencedEnvelope c (s.holdingEnds c)

/-- The envelope and the touched segments (R99 to R101 step 1). -/
def State.sampleEnvelope (s : State) (c : Crane) : State :=
  let e := s.envelope c
  s.setCrane c { s.crane c with envLo := e.1, envHi := e.2, touchFirst := e.1 / 2400, touchLast := e.2 / 2400 }

/-- The envelope check and the barrier check (R101 steps 2 and 3). -/
def State.sampleChecks (s : State) (c : Crane) : State :=
  let t := if s.touchedHeld c then s else s.latchTrip c .envelope
  if t.touchedBarred c then t.latchTrip c .barrier else t

/-- A position sample of crane X (R95 to R101), its steps in order. -/
def State.positionSample (s : State) (c : Crane) : State :=
  (((((((s.samplePosition c).sampleSpeed c).sampleLimit c).sampleMargin c).sampleEnvelope c).sampleChecks c).refreshPermit
    c).handOff c

def execPositionSample (c : Crane) (s : State) : Result :=
  whenRunning s (fun s => finish s (s.positionSample c))

end Sys2Proof.Machine
end

