-- ==== Sys2Proof/Machine/Settings.lean ====
section
/-! DEFINITION. Setting a parameter (chapter 11.2): SET. -/

namespace Sys2Proof.Machine

/-- The range of a numeric parameter (R202). The combine modes and the line sources are coded, with no range. -/
def paramRange : Param → Option (Nat × Nat)
  | .crane _ .gain => some (1024, 65535)
  | .crane _ .home => some (0, 100799)
  | .crane _ .cpr => some (64, 65535)
  | .crane _ .filterWindow => some (1, 8)
  | .crane _ .vMax => some (500, 6000)
  | .crane _ .creepMax => some (50, 500)
  | .crane _ .aBrake => some (300, 3000)
  | .crane _ .tReact => some (0, 200)
  | .crane _ .mFixed => some (50, 1000)
  | .progressTimeout => some (30, 600)
  | .split => some (1, 158)
  | .leastFree => some (1, 16)
  | .interval => some (10, 600)
  | .shortTh => some (0, 255)
  | .alarmTh => some (0, 255)
  | .openTh => some (0, 255)
  | .debounce => some (2, 8)
  | .clearance => some (10, 120)
  | .travel => some (5, 60)
  | .gen _ .period => some (1, 255)
  | .gen _ .start => some (0, 255)
  | .gen _ .width => some (0, 255)
  | .gen _ .mode => none
  | .line _ => none

/-- The combine mode of a code (R202). -/
def modeOf : Nat → Option CombineMode
  | 0 => some .self
  | 1 => some .and
  | 2 => some .or
  | 3 => some .alternate
  | _ => none

/-- The code of a combine mode (R202). -/
def CombineMode.code : CombineMode → Nat
  | .self => 0
  | .and => 1
  | .or => 2
  | .alternate => 3

/-- The source of a code (R202): 0 LOW, 1 HIGH, 2 + k GEN k, 6 + k NOT GEN k, 10 + z ZONE-ALARM z, 14 ANY-ALARM,
15 TROUBLE. -/
def sourceOf (n : Nat) : Option Source :=
  if n = 0 then some .low
  else if n = 1 then some .high
  else if n ≤ 5 then some (.gen (n - 2))
  else if n ≤ 9 then some (.notGen (n - 6))
  else if n ≤ 13 then some (.zoneAlarm (n - 10))
  else if n = 14 then some .anyAlarm
  else if n = 15 then some .trouble
  else none

/-- The code of a source (R202). -/
def Source.code : Source → Nat
  | .low => 0
  | .high => 1
  | .gen k => 2 + k
  | .notGen k => 6 + k
  | .zoneAlarm z => 10 + z
  | .anyAlarm => 14
  | .trouble => 15

/-- A value of a coded parameter lies in its codes (R203 step 1). -/
def codedOk : Param → Nat → Bool
  | .gen _ .mode, v => (modeOf v).isSome
  | .line _, v => (sourceOf v).isSome
  | .gen _ .period, _ => true
  | .gen _ .start, _ => true
  | .gen _ .width, _ => true
  | .crane _ _, _ => true
  | .progressTimeout, _ => true
  | .split, _ => true
  | .leastFree, _ => true
  | .interval, _ => true
  | .shortTh, _ => true
  | .alarmTh, _ => true
  | .openTh, _ => true
  | .debounce, _ => true
  | .clearance, _ => true
  | .travel, _ => true

/-- The value taken (R203 step 3): a numeric value is clamped into its range. -/
def valueTaken (q : Param) (v : Nat) : Nat :=
  match paramRange q with
  | none => v
  | some (lo, hi) => max lo (min v hi)

/-- The setting of a crane. -/
def CraneSettings.get (r : CraneSettings) : CraneParam → Nat
  | .gain => r.gain
  | .home => r.home
  | .cpr => r.cpr
  | .filterWindow => r.filterWindow
  | .vMax => r.vMax
  | .creepMax => r.creepMax
  | .aBrake => r.aBrake
  | .tReact => r.tReact
  | .mFixed => r.mFixed

/-- The setting of a crane changed. -/
def CraneSettings.put (r : CraneSettings) (q : CraneParam) (v : Nat) : CraneSettings :=
  match q with
  | .gain => { r with gain := v }
  | .home => { r with home := v }
  | .cpr => { r with cpr := v }
  | .filterWindow => { r with filterWindow := v }
  | .vMax => { r with vMax := v }
  | .creepMax => { r with creepMax := v }
  | .aBrake => { r with aBrake := v }
  | .tReact => { r with tReact := v }
  | .mFixed => { r with mFixed := v }

/-- The setting of a generator. -/
def GenSettings.get (r : GenSettings) : GenParam → Nat
  | .period => r.period
  | .start => r.start
  | .width => r.width
  | .mode => r.mode.code

/-- The setting of a generator changed; a mode outside its codes has been refused before. -/
def GenSettings.put (r : GenSettings) (q : GenParam) (v : Nat) : GenSettings :=
  match q with
  | .period => { r with period := v }
  | .start => { r with start := v }
  | .width => { r with width := v }
  | .mode => { r with mode := (modeOf v).getD r.mode }

/-- The value a parameter holds, as its code (R202). -/
def State.param (s : State) : Param → Nat
  | .crane c q => (s.craneSettings c).get q
  | .progressTimeout => s.settings.progressTimeout
  | .split => s.settings.split
  | .leastFree => s.settings.leastFree
  | .interval => s.settings.interval
  | .shortTh => s.settings.shortTh
  | .alarmTh => s.settings.alarmTh
  | .openTh => s.settings.openTh
  | .debounce => s.settings.debounce
  | .clearance => s.settings.clearance
  | .travel => s.settings.travel
  | .gen k q => (s.genSettings k).get q
  | .line n => (s.line n).code

/-- Crane X's settings changed. -/
def State.setCraneSettings (s : State) (c : Crane) (r : CraneSettings) : State :=
  match c with
  | .A => s.setSettings { s.settings with craneA := r }
  | .B => s.setSettings { s.settings with craneB := r }

/-- Generator k's settings changed. -/
def State.setGenSettings (s : State) (k : Nat) (r : GenSettings) : State :=
  s.setSettings { s.settings with gens := tableSet .default s.settings.gens k r }

/-- The parameter holds the value taken. -/
def State.putParam (s : State) (q : Param) (v : Nat) : State :=
  match q with
  | .crane c r => s.setCraneSettings c ((s.craneSettings c).put r v)
  | .progressTimeout => s.setSettings { s.settings with progressTimeout := v }
  | .split => s.setSettings { s.settings with split := v }
  | .leastFree => s.setSettings { s.settings with leastFree := v }
  | .interval => s.setSettings { s.settings with interval := v }
  | .shortTh => s.setSettings { s.settings with shortTh := v }
  | .alarmTh => s.setSettings { s.settings with alarmTh := v }
  | .openTh => s.setSettings { s.settings with openTh := v }
  | .debounce => s.setSettings { s.settings with debounce := v }
  | .clearance => s.setSettings { s.settings with clearance := v }
  | .travel => s.setSettings { s.settings with travel := v }
  | .gen k r => s.setGenSettings k ((s.genSettings k).put r v)
  | .line n => s.setLine n ((sourceOf v).getD .low)

/-- A change of CPR makes the crane's stored index phase absent (R94). -/
def State.dropPhase (s : State) (c : Crane) : State :=
  s.setCrane c { s.crane c with ref := (s.crane c).ref.map (fun r => { r with phase := none }) }

/-- A cursor at or beyond its crane's new share size is set to 0 (R150). -/
def State.trimCursor (s : State) (x : Crane) (size : Nat) : State :=
  s.setSchedCrane x
    { s.schedCrane x with cursor := if (s.schedCrane x).cursor < size then (s.schedCrane x).cursor else 0 }

/-- The immediate effects of a changed parameter (R203): the index phase, the cursors, a generator's restart. -/
def State.paramEffect (s : State) : Param → State
  | .crane c .cpr => s.dropPhase c
  | .split => (s.trimCursor .A (24 * s.settings.split)).trimCursor .B (cellCount - 24 * s.settings.split)
  | .gen k _ => s.setGen k .cold
  | .crane _ _ => s
  | .progressTimeout => s
  | .leastFree => s
  | .interval => s
  | .shortTh => s
  | .alarmTh => s
  | .openTh => s
  | .debounce => s
  | .clearance => s
  | .travel => s
  | .line _ => s

/-- A threshold's value taken keeps short_th < alarm_th < open_th (R203 step 4). -/
def State.thresholdsOk (s : State) (q : Param) (v : Nat) : Bool :=
  match q with
  | .shortTh => decide (v < s.settings.alarmTh ∧ s.settings.alarmTh < s.settings.openTh)
  | .alarmTh => decide (s.settings.shortTh < v ∧ v < s.settings.openTh)
  | .openTh => decide (s.settings.shortTh < s.settings.alarmTh ∧ s.settings.alarmTh < v)
  | _ => true

/-- A crane parameter while that crane's drive permit is on (R203 step 2). -/
def State.craneBusy (s : State) : Param → Bool
  | .crane c _ => (s.crane c).permit
  | _ => false

/-- The parameter set to a value: an equal value changes nothing (R203). -/
def State.takeParam (s : State) (q : Param) (v : Nat) : State :=
  if v = s.param q then s else (s.putParam q v).paramEffect q

/-- SET of a parameter (R203). -/
def State.setParam (s : State) (code : Nat) (q : Param) (v : Nat) : State × Reply :=
  if !codedOk q v then refuse s .range
  else if s.craneBusy q then refuse s .notIdle
  else if !s.thresholdsOk q (valueTaken q v) then refuse s .range
  else
    (s.takeParam q (valueTaken q v),
      .ack [.num 1 code, .num (paramWidth q) (valueTaken q v), .indication (decide (valueTaken q v ≠ v))])

def ownSet (a : Nat × Nat) (s : State) : State × Reply :=
  match paramOf a.1 with
  | none => refuse s .range
  | some q => s.setParam a.1 q a.2

def execSetParam (p : Port) (parameter value : Nat) (s : State) : Result :=
  serve p .set bodySet (parameter, value) ownSet false s

end Sys2Proof.Machine
end

