-- ==== Sys2Proof/Machine/Start.lean ====
section
/-! DEFINITION. The retention memory and the starts (11.3 to 11.5): RSTRT, TRANSMIT_COMPLETE, POWER_ON,
LOSS_OF_MAIN_SUPPLY, RESET_ASSERTED, RESET_RELEASED. The retained items have one home, the fields of `State` (log 10). -/

namespace Sys2Proof.Machine

/-! ## The directory at a warm start (R40) -/

/-- A bin at a warm start: no live order, and pending picks revert unless it is AT-BAY (R40). -/
def Bin.atWarm (b : Bin) : Bin :=
  let c := if b.place.isAtBay then b else b.revertPicks
  { c with order := none }

/-- A RESERVED cell becomes EMPTY, keeping its stamp and unreadable count (R40). -/
def Cell.atWarm (c : Cell) : Cell :=
  match c.state with
  | .reserved _ => { c with state := .empty }
  | .unverified => c
  | .empty => c
  | .occupied _ => c
  | .suspect => c
  | .blocked => c

/-- An INBOUND bay becomes EMPTY with its flags clear; an OUTBOUND bay becomes OCCUPIED (R40). -/
def Bay.atWarm (b : Bay) : Bay :=
  match b.state with
  | .inbound _ => .cold
  | .outbound n => { b with state := .occupied n }
  | .empty => b
  | .occupied _ => b

/-- The directory changes of a warm start (R40). -/
def State.warmDirectory (s : State) : State :=
  { s with
    bins := tableMap .cold Bin.atWarm s.bins
    cells := tableMap .cold Cell.atWarm s.cells
    bays := tableMap .cold Bay.atWarm s.bays }

/-! ## The blocks at a start (R64, R89, R112, R126, R163, R187, R201) -/

/-- A shutter at a start, its state read from its limit inputs (R187). -/
def Shutter.atStart (l : LimitLevels) : Shutter where
  state := if l.closedLimit && !l.openLimit then .closed else if l.openLimit && !l.closedLimit then .open else .jammed
  timer := none
  closedLimit := l.closedLimit
  openLimit := l.openLimit

/-- The three shutters at a start. -/
def shuttersAt (l : StartLevels) : Table Shutter :=
  tableSet .atTop (tableSet .atTop (tableSet .atTop [] 0 (.atStart l.limits0)) 1 (.atStart l.limits1)) 2
    (.atStart l.limits2)

/-- A crane's part of the scheduler at a warm start: cursor and wrap mark kept (R163). -/
def SchedCrane.atStart (r : SchedCrane) : SchedCrane := { r with credits := 0, lag := false }

/-- The scheduler at a warm start, with the interval setting in seconds (R163). -/
def Scheduler.atStart (r : Scheduler) (interval : Nat) : Scheduler where
  timer := interval * 1000
  a := r.a.atStart
  b := r.b.atStart
  epoch := r.epoch
  wing := .normal
  verifySet := zoneNumbers

/-- Every block at its values after a start, from the retained items of `s` and the field-line levels (R206). -/
def State.startBlocks (s : State) (l : StartLevels) : State :=
  { s with
    slots := []
    counter := 0
    craneA := .atStart s.settings.craneA.mFixed 0 2399 0 s.craneA.carried l.inputsA
    craneB := .atStart s.settings.craneB.mFixed 98400 100799 41 s.craneB.carried l.inputsB
    segs := []
    sched := s.sched.atStart s.settings.interval
    loops := []
    zones := []
    shutters := shuttersAt l
    gens := []
    lines := []
    manualRelease := l.manualRelease
    portC := .atStart l.strapsC
    portA := .atStart l.strapsA
    portB := .atStart l.strapsB
    portS := .atStart l.strapsS
    power := .running }

/-- The cold-start indicator after a warm start: COLD stays (R206). -/
def ColdStart.afterWarm : ColdStart → ColdStart
  | .clear => .warm
  | .warm => .warm
  | .cold => .cold

/-- A warm start (R206). -/
def State.warmStart (s : State) (l : StartLevels) : State :=
  (s.warmDirectory.setColdStart s.coldStart.afterWarm).startBlocks l

/-- The retention memory written anew with the cold values of each item (R204). -/
def State.coldRetention (s : State) : State :=
  { s with
    bins := []
    cells := []
    bays := []
    craneA := { s.craneA with carried := none }
    craneB := { s.craneB with carried := none }
    settings := .default
    sched := .cold
    coldStart := .cold }

/-- A cold start (R206). -/
def State.coldStartAt (s : State) (l : StartLevels) : State := s.coldRetention.startBlocks l

/-! ## RSTRT and the end of a transmission (R198, R205) -/

/-- RSTRT (R205): accepted in every state; port S's request server takes no further item. -/
def ownRstrt (_ : Unit) (s : State) : State × Reply := (s.setPort .S { s.port .S with stopped := true }, .ack [])

def execRstrt (p : Port) (s : State) : Result := serve p .rstrt bodyNone () ownRstrt false s

/-- The message is an ACK that answers RSTRT. -/
def Message.isRestart : Message → Bool
  | .ack k _ => k == .rstrt
  | .nak .. => false
  | .notice _ => false

/-- The transmitter of port `p` has sent the last character of `m`: the warm start of an accepted RSTRT, which reads the field
lines at levels `l`, else the next choice (R198, R205, R206; log 25). -/
def State.sent (s : State) (p : Port) (l : StartLevels) (m : Message) : State :=
  if p = .S ∧ s.portS.stopped = true ∧ m.isRestart = true then s.warmStart l
  else (s.setPort p { s.port p with sending := none }).pump

def execTransmitComplete (e : MessageEnd) (s : State) : Result :=
  whenRunning s (fun s =>
    match (s.port e.port).sending with
    | none => s
    | some m => s.sent e.port e.levels m)

/-! ## Supply and reset (R205) -/

/-- Main supply is established: the part waits for the reset input to be deasserted (R205). -/
def execPowerOn (s : State) : Result := .next (if s.power = .unpowered then s.setPower .powerOnWait else s)

/-- Main supply is lost: the retained items stay (R204, R205; log 22). -/
def execLossOfMainSupply (s : State) : Result := .next (s.setPower .unpowered)

/-- The reset input is asserted (R205). -/
def execResetAsserted (s : State) : Result := .next (if s.power = .running then s.setPower .inReset else s)

/-- The reset input is deasserted, with the level of the retention-valid input and of the field lines (R205, R206). -/
def execResetReleased (retentionValid : Bool) (l : StartLevels) (s : State) : Result :=
  .next
    (match s.power with
    | .inReset => s.warmStart l
    | .powerOnWait => if retentionValid then s.warmStart l else s.coldStartAt l
    | .running => s
    | .unpowered => s)

end Sys2Proof.Machine
end

