-- ==== Sys2Proof/Machine/Dispatch.lean ====
section
/-! DEFINITION. One arm per command. -/

namespace Sys2Proof.Machine

/-- A command's effect on everything but the queue. -/
def exec (i : Instr) (s : State) : Host.Outcome State Fault Refusal :=
  match i with
  | .stat p => Sys2Proof.Machine.execStat p s
  | .rdbin p bin => Sys2Proof.Machine.execRdbin p bin s
  | .rdcell p cell => Sys2Proof.Machine.execRdcell p cell s
  | .rdord p slot gen => Sys2Proof.Machine.execRdord p slot gen s
  | .rdcrn p crane => Sys2Proof.Machine.execRdcrn p crane s
  | .rdseg p segment => Sys2Proof.Machine.execRdseg p segment s
  | .rdzone p read => Sys2Proof.Machine.execRdzone p read s
  | .fetch p bin station picks loan authority => Sys2Proof.Machine.execFetch p bin station picks loan authority s
  | .pick p bin compartment => Sys2Proof.Machine.execPick p bin compartment s
  | .unpick p bin compartment => Sys2Proof.Machine.execUnpick p bin compartment s
  | .slot p station => Sys2Proof.Machine.execSlot p station s
  | .place p bin compartment => Sys2Proof.Machine.execPlace p bin compartment s
  | .unclaim p bin compartment => Sys2Proof.Machine.execUnclaim p bin compartment s
  | .relbay p station bay => Sys2Proof.Machine.execRelbay p station bay s
  | .cancel p slot gen => Sys2Proof.Machine.execCancel p slot gen s
  | .cancelOnPortS slot gen => Sys2Proof.Machine.execCancelOnPortS slot gen s
  | .nextWork p level => Sys2Proof.Machine.execNextWork p level s
  | .load p slot gen => Sys2Proof.Machine.execLoad p slot gen s
  | .done p slot gen cell => Sys2Proof.Machine.execDone p slot gen cell s
  | .unable p slot gen reason cell => Sys2Proof.Machine.execUnable p slot gen reason cell s
  | .tag p slot gen result => Sys2Proof.Machine.execTag p slot gen result s
  | .rsv p lo hi => Sys2Proof.Machine.execRsv p lo hi s
  | .rel p lo hi => Sys2Proof.Machine.execRel p lo hi s
  | .clrt p => Sys2Proof.Machine.execClrt p s
  | .keep p code => Sys2Proof.Machine.execKeep p code s
  | .assign p bin cell => Sys2Proof.Machine.execAssign p bin cell s
  | .clrsus p cell => Sys2Proof.Machine.execClrsus p cell s
  | .block p cell => Sys2Proof.Machine.execBlock p cell s
  | .unblk p cell => Sys2Proof.Machine.execUnblk p cell s
  | .quar p bin => Sys2Proof.Machine.execQuar p bin s
  | .unquar p bin => Sys2Proof.Machine.execUnquar p bin s
  | .setcmp p bin states => Sys2Proof.Machine.execSetcmp p bin states s
  | .move p bin cell authority => Sys2Proof.Machine.execMove p bin cell authority s
  | .frel p crane lo hi => Sys2Proof.Machine.execFrel p crane lo hi s
  | .stop p crane => Sys2Proof.Machine.execStop p crane s
  | .creep p crane => Sys2Proof.Machine.execCreep p crane s
  | .crend p crane => Sys2Proof.Machine.execCrend p crane s
  | .whold p zones => Sys2Proof.Machine.execWhold p zones s
  | .wres p => Sys2Proof.Machine.execWres p s
  | .frst p zone => Sys2Proof.Machine.execFrst p zone s
  | .sopen p shutter => Sys2Proof.Machine.execSopen p shutter s
  | .setParam p parameter value => Sys2Proof.Machine.execSetParam p parameter value s
  | .rstrt p => Sys2Proof.Machine.execRstrt p s
  | .assemblerRefusal p => Sys2Proof.Machine.execAssemblerRefusal p s
  | .unknownKind p => Sys2Proof.Machine.execUnknownKind p s
  | .messageComplete p => Sys2Proof.Machine.execMessageComplete p s
  | .overlengthMessage p => Sys2Proof.Machine.execOverlengthMessage p s
  | .lineBreak p => Sys2Proof.Machine.execLineBreak p s
  | .transmitComplete e => Sys2Proof.Machine.execTransmitComplete e s
  | .positionSample c => Sys2Proof.Machine.execPositionSample c s
  | .inputExcursion c input level => Sys2Proof.Machine.execInputExcursion c input level s
  | .filterWindow c which => Sys2Proof.Machine.execFilterWindow c which s
  | .keepaliveExpiry c => Sys2Proof.Machine.execKeepaliveExpiry c s
  | .progressTimerExpiry slot => Sys2Proof.Machine.execProgressTimerExpiry slot s
  | .verificationIntervalExpiry => Sys2Proof.Machine.execVerificationIntervalExpiry s
  | .loopSample zone value manualRelease => Sys2Proof.Machine.execLoopSample zone value manualRelease s
  | .clearanceTimerExpiry zone => Sys2Proof.Machine.execClearanceTimerExpiry zone s
  | .travelTimerExpiry shutter => Sys2Proof.Machine.execTravelTimerExpiry shutter s
  | .limitEdge shutter input level => Sys2Proof.Machine.execLimitEdge shutter input level s
  | .fireResetInput => Sys2Proof.Machine.execFireResetInput s
  | .generatorTick => Sys2Proof.Machine.execGeneratorTick s
  | .powerOn => Sys2Proof.Machine.execPowerOn s
  | .lossOfMainSupply => Sys2Proof.Machine.execLossOfMainSupply s
  | .resetAsserted => Sys2Proof.Machine.execResetAsserted s
  | .resetReleased retentionValid levels => Sys2Proof.Machine.execResetReleased retentionValid levels s
  | .characterReceived p frame => Sys2Proof.Machine.execCharacterReceived p frame s
  | .breakEnd p => Sys2Proof.Machine.execBreakEnd p s

end Sys2Proof.Machine
end

