-- ==== Sys2Proof/Machine/Step.lean ====
section
/-! DEFINITION. One step: the command at the front of the queue, or one millisecond on an empty queue (log 3). -/

namespace Sys2Proof.Machine

/-! ## Time (log 3) -/

/-- A keepalive state one millisecond later. -/
def KeepaliveState.tick : KeepaliveState → KeepaliveState
  | .running ms => .running (ms - 1)
  | .stopped => .stopped
  | .expired => .expired

/-- A crane record one millisecond later. -/
def CraneRec.tick (r : CraneRec) : CraneRec := { r with keepalive := r.keepalive.tick }

/-- An order one millisecond later. -/
def Order.tick (o : Order) : Order := { o with timer := o.timer.map (fun ms => ms - 1) }

/-- A slot one millisecond later. -/
def Slot.tick (sl : Slot) : Slot := { sl with order := sl.order.map Order.tick }

/-- A zone one millisecond later. -/
def Zone.tick (z : Zone) : Zone := { z with timer := z.timer.map (fun ms => ms - 1) }

/-- A shutter one millisecond later. -/
def Shutter.tick (k : Shutter) : Shutter := { k with timer := k.timer.map (fun ms => ms - 1) }

/-- The state one millisecond later: each running timer holds one millisecond less. -/
def State.elapse (s : State) : State :=
  { s with
    slots := tableMap .cold Slot.tick s.slots
    craneA := s.craneA.tick
    craneB := s.craneB.tick
    sched := { s.sched with timer := s.sched.timer - 1 }
    zones := tableMap .cold Zone.tick s.zones
    shutters := tableMap .atTop Shutter.tick s.shutters }

/-- An idle millisecond: timers run while the part runs (R205). -/
def State.tick (s : State) : State := if s.running then s.elapse else s

/-! ## The step -/

/-- The command at the front of the queue is taken; on an empty queue a millisecond passes (log 3). -/
def step (s : State) : Host.Outcome State Fault Refusal :=
  match s.pending with
  | [] => .next s.tick
  | c :: rest => exec c { s with pending := rest }

/-- `s` with the command that a word spells put at the front of its queue; the table gives its rows no bits, so no word
spells one (log 5). -/
def State.withFetchWord (s : State) (nbits w : Nat) : State :=
  match decodeTableWord nbits w with
  | some c => { s with pending := c :: s.pending }
  | none => s

end Sys2Proof.Machine
end

