-- ==== Sys2Proof/WellFormed.lean ====
section
/-! DEFINITION. Which commands can come over the wing link or the field lines: every operand fits the width that R190
(for SET, R202) gives its field. A value that fits its width and lies outside its bounds is well formed: the part refuses
it with RANGE (R9, R10). -/

namespace Sys2Proof

/-- The operand fits a one-byte field. -/
def fitsByte (n : Nat) : Bool := decide (n < 256)

/-- The operand fits a two-byte field. -/
def fitsHalf (n : Nat) : Bool := decide (n < 65536)

/-- The operand fits a three-byte field (the widest value field of SET, R202). -/
def fitsTriple (n : Nat) : Bool := decide (n < 16777216)

/-- A counted list of one-byte entries (R190). -/
def fitsList (l : List Nat) : Bool := fitsByte l.length && l.all fitsByte

/-- An optional cell field (R190). -/
def fitsOptCell : Option Nat → Bool
  | none => true
  | some n => fitsHalf n

/-- The result operand of TAG (R157). -/
def TagResult.fits : TagResult → Bool
  | .tag b => fitsHalf b
  | .noBin => true
  | .unreadable => true

/-- Every operand fits its field. A loop value is 0 to 255 (R164). -/
def Instr.wellFormed : Instr → Bool
  | .stat _ => true
  | .rdbin _ bin => fitsHalf bin
  | .rdcell _ cell => fitsHalf cell
  | .rdord _ sl gen => fitsByte sl && fitsByte gen
  | .rdcrn _ crane => fitsByte crane
  | .rdseg _ segment => fitsByte segment
  | .rdzone _ read => fitsByte read.zone
  | .fetch _ bin station picks _ authority => fitsHalf bin && fitsByte station && fitsList picks && fitsByte authority
  | .pick _ bin compartment => fitsHalf bin && fitsByte compartment
  | .unpick _ bin compartment => fitsHalf bin && fitsByte compartment
  | .slot _ station => fitsByte station
  | .place _ bin compartment => fitsHalf bin && fitsByte compartment
  | .unclaim _ bin compartment => fitsHalf bin && fitsByte compartment
  | .relbay _ station bay => fitsByte station && fitsByte bay
  | .cancel _ sl gen => fitsByte sl && fitsByte gen
  | .cancelOnPortS sl gen => fitsByte sl && fitsByte gen
  | .nextWork _ level => fitsByte level
  | .load _ sl gen => fitsByte sl && fitsByte gen
  | .done _ sl gen cell => fitsByte sl && fitsByte gen && fitsOptCell cell
  | .unable _ sl gen reason cell => fitsByte sl && fitsByte gen && fitsByte reason && fitsOptCell cell
  | .tag _ sl gen result => fitsByte sl && fitsByte gen && result.fits
  | .rsv _ lo hi => fitsByte lo && fitsByte hi
  | .rel _ lo hi => fitsByte lo && fitsByte hi
  | .clrt _ => true
  | .keep _ code => fitsByte code
  | .assign _ bin cell => fitsHalf bin && fitsOptCell cell
  | .clrsus _ cell => fitsHalf cell
  | .block _ cell => fitsHalf cell
  | .unblk _ cell => fitsHalf cell
  | .quar _ bin => fitsHalf bin
  | .unquar _ bin => fitsHalf bin
  | .setcmp _ bin states => fitsHalf bin && fitsList states
  | .move _ bin cell authority => fitsHalf bin && fitsHalf cell && fitsByte authority
  | .frel _ crane lo hi => fitsByte crane && fitsByte lo && fitsByte hi
  | .stop _ crane => fitsByte crane
  | .creep _ crane => fitsByte crane
  | .crend _ crane => fitsByte crane
  | .whold _ zones => fitsList zones
  | .wres _ => true
  | .frst _ zone => fitsByte zone
  | .sopen _ shutter => fitsByte shutter
  | .setParam _ parameter value => fitsByte parameter && fitsTriple value
  | .rstrt _ => true
  | .assemblerRefusal _ => true
  | .unknownKind _ => true
  | .messageComplete _ => true
  | .overlengthMessage _ => true
  | .lineBreak _ => true
  | .transmitComplete _ => true
  | .positionSample _ => true
  | .inputExcursion _ _ _ => true
  | .filterWindow _ _ => true
  | .keepaliveExpiry _ => true
  | .progressTimerExpiry _ => true
  | .verificationIntervalExpiry => true
  | .loopSample _ value _ => fitsByte value
  | .clearanceTimerExpiry _ => true
  | .travelTimerExpiry _ => true
  | .limitEdge _ _ _ => true
  | .fireResetInput => true
  | .generatorTick => true
  | .powerOn => true
  | .lossOfMainSupply => true
  | .resetAsserted => true
  | .resetReleased _ _ => true
  | .characterReceived _ _ => true
  | .breakEnd _ => true

end Sys2Proof
end

