-- ==== Sys2Proof/Safety.lean ====
section
/-! DEFINITION. What a sound state is, and the words that the claims use: what a port answers, and what an event leaves
alone. -/

namespace Sys2Proof.Machine

/-! ## Sound states -/

/-- Every table is in its canonical form: numbers strictly rising, no entry equal to the record of an unlisted number. -/
def State.tablesWf (s : State) : Bool :=
  tableWf .cold s.bins && tableWf .cold s.cells && tableWf .cold s.bays && tableWf .cold s.slots &&
    tableWf .cold s.segs && tableWf .cold s.loops && tableWf .cold s.zones && tableWf .atTop s.shutters &&
    tableWf .cold s.gens && tableWf .low s.lines && tableWf .default s.settings.gens

/-- The rail is held safely (R113, R114, R119): a SEALED segment is free, held segments are segments of the rail, each holding
is one run, and every segment of crane A lies below every segment of crane B. -/
structure RailSound (s : State) : Prop where
  sealedFree : ∀ n, (s.seg n).sealState = .sealed → (s.seg n).holder = none
  onRail : ∀ n, (s.seg n).holder.isSome = true → n < 42
  oneRun : ∀ c a m b, s.holds c a = true → s.holds c b = true → a ≤ m → m ≤ b → s.holds c m = true
  inOrder : ∀ a b, s.holds .A a = true → s.holds .B b = true → a < b

/-- Each drive permit is on exactly when its conditions hold (R104). -/
def PermitSound (s : State) : Prop := ∀ c, (s.crane c).permit = s.permitHolds c

/-- A crane's trip record (R102): a clear latch records no cause; a latched one records a first cause, which is in the cause
set, and the set is in ascending order of code. -/
structure TripSound (r : CraneRec) : Prop where
  clear : r.tripLatched = false → r.tripFirst = none ∧ r.tripCauses = []
  latched : r.tripLatched = true → ∃ x, r.tripFirst = some x ∧ x ∈ r.tripCauses
  rising : r.tripCauses.Pairwise (fun a b => a.code < b.code)

/-- A partial message holds its head; once it holds its length, that is at most 48, and the message is not complete (R189,
R195). -/
def Partial.sound (m : Partial) : Prop :=
  1 ≤ m.bytes.length ∧ (2 ≤ m.bytes.length → m.length ≤ 48 ∧ m.bytes.length ≤ m.length + 3)

/-- A link port's bounds (R194 to R196, R199): at most 64 characters and 16 notices wait, and an assembler that holds an item
is hunting. -/
structure PortSound (q : LinkPort) : Prop where
  fifo : q.fifo.length ≤ 64
  queue : q.queue.length ≤ 16
  hunting : q.item.isSome = true → q.partialMsg = none
  partialOk : ∀ m, q.partialMsg = some m → m.sound

/-- Every numeric parameter lies in its range, and the thresholds are in order (R202, R203). -/
structure SettingsSound (s : State) : Prop where
  ranged : ∀ q lo hi, paramRange q = some (lo, hi) → lo ≤ s.param q ∧ s.param q ≤ hi
  thresholds : s.settings.shortTh < s.settings.alarmTh ∧ s.settings.alarmTh < s.settings.openTh

/-- Each bin is recorded by exactly the place that it names, its compartments are sixteen, and a pending pick or a claim lies only
where R22 allows it (R17, R18, R22). -/
structure DirectorySound (s : State) : Prop where
  stored : ∀ b n, (s.bin b).place = .stored n ↔ (s.cell n).state = .occupied b
  atBay : ∀ b st k, (s.bin b).place = .atBay st k ↔ (s.bay st k).state = .occupied b ∨ (s.bay st k).state = .outbound b
  onCrane : ∀ b c, (s.bin b).place = .onCrane c ↔ (s.crane c).carried = some b
  sixteen : ∀ b, (s.bin b).comps.length = 16
  pending : ∀ b, .pendingPick ∈ (s.bin b).comps →
    (∃ st k, (s.bin b).place = .atBay st k) ∨
      ∃ h o, (s.bin b).order = some h ∧ s.orderOf h = some o ∧ o.kind = .fetch
  claimed : ∀ b, .claimed ∈ (s.bin b).comps → ∃ st k, (s.bin b).place = .atBay st k

/-- An order's bin, source and destination are such as its kind gives (R43, R44; R54 can leave a STOW or MOVE without a
destination). -/
def Order.Shaped (o : Order) : Prop :=
  match o.kind with
  | .fetch => o.bin ≠ none ∧ (∃ n, o.source = .cell n) ∧ ∃ st, o.dest = some (.station st) ∧ o.crane = craneOf st
  | .stow =>
    o.bin ≠ none ∧ ((∃ st k, o.source = .bay st k) ∨ ∃ c, o.source = .crane c) ∧ ∀ d, o.dest = some d → ∃ n, d = .cell n
  | .move =>
    o.bin ≠ none ∧ ((∃ n, o.source = .cell n) ∨ ∃ st k, o.source = .bay st k) ∧ ∀ d, o.dest = some d → ∃ n, d = .cell n
  | .verify => o.bin = none ∧ (∃ n, o.source = .cell n) ∧ o.dest = none

/-- At most 64 orders are live, each of the shape of its kind; a bin's live order handle names the live order whose bin it is; a cell is RESERVED for an order
exactly when it is the destination of that live STOW or MOVE; the bin of an order not yet LOADED stands at the order's source
(R20, R43, R44, R47). -/
structure OrdersSound (s : State) : Prop where
  slots : ∀ i, 64 ≤ i → (s.slot i).order = none
  shaped : ∀ h o, s.orderOf h = some o → o.Shaped
  bound : ∀ b h, (s.bin b).order = some h ↔ ∃ o, s.orderOf h = some o ∧ o.bin = some b
  reserved : ∀ n h, (s.cell n).state = .reserved h ↔
    ∃ o, s.orderOf h = some o ∧ (o.kind = .stow ∨ o.kind = .move) ∧ o.dest = some (.cell n)
  source : ∀ h o b, s.orderOf h = some o → o.bin = some b → o.state ≠ .loaded →
    (∀ n, o.source = .cell n → (s.bin b).place = .stored n) ∧
      ∀ st k, o.source = .bay st k → (s.bin b).place = .atBay st k

/-- A crane's active order is its one order in DISPATCHED or LOADED; the crane carries the bin of a LOADED one, and nothing for a
DISPATCHED one; its orphan flag is set exactly while it carries a bin and has no active order (R46, R61, R62). -/
structure CranesSound (s : State) : Prop where
  active : ∀ c h, (s.crane c).active = some h ↔ ∃ o, s.orderOf h = some o ∧ o.crane = c ∧ o.state ≠ .queued
  loaded : ∀ c h o, (s.crane c).active = some h → s.orderOf h = some o → o.state = .loaded →
    o.bin ≠ none ∧ (s.crane c).carried = o.bin
  dispatched : ∀ c h o, (s.crane c).active = some h → s.orderOf h = some o → o.state = .dispatched →
    (s.crane c).carried = none
  orphan : ∀ c, (s.crane c).orphan = true ↔ (s.crane c).active = none ∧ (s.crane c).carried ≠ none

/-- The laws of the directory, the order table and the cranes' work, which hold together. -/
structure LedgerSound (s : State) : Prop where
  directory : DirectorySound s
  orders : OrdersSound s
  cranes : CranesSound s

/-- Each crane's credits are 0 to 8 and its cursor is a position of its share (R150, R153). -/
structure SchedSound (s : State) : Prop where
  credits : ∀ x, (s.schedCrane x).credits ≤ 8
  cursor : ∀ x, (s.schedCrane x).cursor < s.shareSize x

/-- The alarm latch is set exactly in the four states of R166, and the clearance timer runs in CLEARING alone. -/
structure ZoneSound (z : Zone) : Prop where
  latch : z.latch = true ↔ z.state = .clearing ∨ z.state = .sealing ∨ z.state = .sealed ∨ z.state = .obstructed
  timer : z.timer ≠ none → z.state = .clearing

/-- The travel timer runs exactly in CLOSING and OPENING (R174). -/
def ShutterSound (k : Shutter) : Prop := k.timer ≠ none ↔ k.state = .closing ∨ k.state = .opening

/-- Every zone and every shutter is sound (R166, R174). -/
structure FireSound (s : State) : Prop where
  zones : ∀ z, ZoneSound (s.zone z)
  shutters : ∀ k, ShutterSound (s.shutter k)

/-- The codes of the signal line sources (R202). -/
def lineSourceCodes : List (Nat × Source) :=
  [(0, .low), (1, .high), (2, .gen 0), (3, .gen 1), (4, .gen 2), (5, .gen 3), (6, .notGen 0), (7, .notGen 1),
    (8, .notGen 2), (9, .notGen 3), (10, .zoneAlarm 0), (11, .zoneAlarm 1), (12, .zoneAlarm 2), (13, .zoneAlarm 3),
    (14, .anyAlarm), (15, .trouble)]

/-! ## Requests -/

/-- The part runs, and port `p`'s request server can take a request from the link: its response slot is empty, it is not
stopped, and no other item waits (R197). -/
def State.serves (s : State) (p : Port) : Prop :=
  s.running = true ∧ (s.port p).slot = none ∧ (s.port p).stopped = false ∧ (s.port p).item = none

/-- After a request on port `p`, its response is being sent, or waits for the message being sent to end (R197, R198). -/
def Answered (s t : State) (p : Port) (m : Message) : Prop :=
  match (s.port p).sending with
  | none => (t.port p).sending = some m ∧ (t.port p).slot = none
  | some b => (t.port p).sending = some b ∧ (t.port p).slot = some m

/-- The state after a request of kind `k` on port `p` that found the part in `s`, was taken with result `fields`, and left the
blocks as in `u` (R197). -/
def acked (s : State) (p : Port) (k : Kind) (fields : List Field) (u : State) : State := conclude s p k false (u, .ack fields)

/-- The state after a refused request: the response, and nothing else (00_scope 4.2.7). -/
def refused (s : State) (p : Port) (k : Kind) (r : Reason) (d : Option Nat) : State :=
  (s.respond p (.nak (kindCode k) r d)).pump

/-- `d` is the lowest of the numbers from `lo` to `hi` that passes. -/
def lowestIn (lo hi : Nat) (q : Nat → Prop) (d : Nat) : Prop := lo ≤ d ∧ d ≤ hi ∧ q d ∧ ∀ n, lo ≤ n → n < d → ¬q n

/-- The shutter's state is one that a crane may not span (R101, R104). -/
def ShutterBars (x : ShutterState) : Prop := x = .closing ∨ x = .closed ∨ x = .opening ∨ x = .jammed

/-- A crane whose latch is clear, or that FIRE alone stopped, has its last touched segments within its holding: what a position
sample, CLRT and the releases keep (R101, R104, R110, R118). -/
def EnvelopeHeld (s : State) : Prop :=
  ∀ c, ((s.crane c).tripLatched = false ∨ (s.crane c).tripCauses = [.fire]) →
    ∀ n, (s.crane c).touchFirst ≤ n → n ≤ (s.crane c).touchLast → (s.seg n).holder = some c

/-- The crane record without its waiting flag. -/
def CraneRec.still (r : CraneRec) : CraneRec := { r with waiting := false }

/-- The state without its link ports and the cranes' waiting flags: what a request leaves to its owning block. -/
def State.still (s : State) : State :=
  { s with
    craneA := s.craneA.still
    craneB := s.craneB.still
    portC := .atStart ⟨false, false⟩
    portA := .atStart ⟨false, false⟩
    portB := .atStart ⟨false, false⟩
    portS := .atStart ⟨false, false⟩ }

/-- Two states agree in everything but the link ports and the waiting flags. -/
def SameBlocks (s t : State) : Prop := s.still = t.still

/-- A link port without its transmitter: what a request on another port never changes, but for its notice queue (R197 to
R199). -/
def LinkPort.receiver (q : LinkPort) : LinkPort :=
  { q with slot := none, sending := none, queue := [], flags := { q.flags with noticeLost := false } }

/-- Two states have the same receivers, assemblers and line flags (but NOTICE-LOST) at every port. -/
def SameReceivers (s t : State) : Prop := ∀ p, (s.port p).receiver = (t.port p).receiver

/-- The kind and port of a request command; events are none (R191). -/
def requestOf : Instr → Option (Port × Kind)
  | .stat p => some (p, .stat)
  | .rdbin p _ => some (p, .rdbin)
  | .rdcell p _ => some (p, .rdcell)
  | .rdord p _ _ => some (p, .rdord)
  | .rdcrn p _ => some (p, .rdcrn)
  | .rdseg p _ => some (p, .rdseg)
  | .rdzone p _ => some (p, .rdzone)
  | .fetch p _ _ _ _ _ => some (p, .fetch)
  | .pick p _ _ => some (p, .pick)
  | .unpick p _ _ => some (p, .unpick)
  | .slot p _ => some (p, .slot)
  | .place p _ _ => some (p, .place)
  | .unclaim p _ _ => some (p, .unclaim)
  | .relbay p _ _ => some (p, .relbay)
  | .cancel p _ _ => some (p, .cancel)
  | .cancelOnPortS _ _ => some (.S, .cancel)
  | .nextWork p _ => some (p, .next)
  | .load p _ _ => some (p, .load)
  | .done p _ _ _ => some (p, .done)
  | .unable p _ _ _ _ => some (p, .unable)
  | .tag p _ _ _ => some (p, .tag)
  | .rsv p _ _ => some (p, .rsv)
  | .rel p _ _ => some (p, .rel)
  | .clrt p => some (p, .clrt)
  | .keep p _ => some (p, .keep)
  | .assign p _ _ => some (p, .assign)
  | .clrsus p _ => some (p, .clrsus)
  | .block p _ => some (p, .block)
  | .unblk p _ => some (p, .unblk)
  | .quar p _ => some (p, .quar)
  | .unquar p _ => some (p, .unquar)
  | .setcmp p _ _ => some (p, .setcmp)
  | .move p _ _ _ => some (p, .move)
  | .frel p _ _ _ => some (p, .frel)
  | .stop p _ => some (p, .stop)
  | .creep p _ => some (p, .creep)
  | .crend p _ => some (p, .crend)
  | .whold p _ => some (p, .whold)
  | .wres p => some (p, .wres)
  | .frst p _ => some (p, .frst)
  | .sopen p _ => some (p, .sopen)
  | .setParam p _ _ => some (p, .set)
  | .rstrt p => some (p, .rstrt)
  | .assemblerRefusal _ => none
  | .unknownKind _ => none
  | .messageComplete _ => none
  | .overlengthMessage _ => none
  | .lineBreak _ => none
  | .transmitComplete _ => none
  | .positionSample _ => none
  | .inputExcursion _ _ _ => none
  | .filterWindow _ _ => none
  | .keepaliveExpiry _ => none
  | .progressTimerExpiry _ => none
  | .verificationIntervalExpiry => none
  | .loopSample _ _ _ => none
  | .clearanceTimerExpiry _ => none
  | .travelTimerExpiry _ => none
  | .limitEdge _ _ _ => none
  | .fireResetInput => none
  | .generatorTick => none
  | .powerOn => none
  | .lossOfMainSupply => none
  | .resetAsserted => none
  | .resetReleased _ _ => none
  | .characterReceived _ _ => none
  | .breakEnd _ => none

/-- The bytes of an optional cell (R190). -/
def optCellBytes : Option Nat → List Byte
  | none => [0]
  | some n => 1 :: numBytes 2 n

/-- The bytes of a counted list of one-byte entries (R190). -/
def listBytes (l : List Nat) : List Byte := numBytes 1 l.length ++ l.flatMap (numBytes 1)

/-- The bytes of a TAG result (R190). -/
def resultBytes : TagResult → List Byte
  | .tag b => 0 :: numBytes 2 b
  | .noBin => [1]
  | .unreadable => [2]

/-- The body by which a request command comes over the link: its operands in the order of its rule (R190). A SET whose code
names no parameter has the value in three bytes; an event has no body. -/
def requestBody : Instr → List Byte
  | .stat _ => []
  | .rdbin _ bin => numBytes 2 bin
  | .rdcell _ cell => numBytes 2 cell
  | .rdord _ sl gen => numBytes 1 sl ++ numBytes 1 gen
  | .rdcrn _ crane => numBytes 1 crane
  | .rdseg _ segment => numBytes 1 segment
  | .rdzone _ read => numBytes 1 read.zone
  | .fetch _ bin station picks loan authority =>
    numBytes 2 bin ++ numBytes 1 station ++ listBytes picks ++ numBytes 4 loan.toNat ++ numBytes 1 authority
  | .pick _ bin compartment => numBytes 2 bin ++ numBytes 1 compartment
  | .unpick _ bin compartment => numBytes 2 bin ++ numBytes 1 compartment
  | .slot _ station => numBytes 1 station
  | .place _ bin compartment => numBytes 2 bin ++ numBytes 1 compartment
  | .unclaim _ bin compartment => numBytes 2 bin ++ numBytes 1 compartment
  | .relbay _ station bay => numBytes 1 station ++ numBytes 1 bay
  | .cancel _ sl gen => numBytes 1 sl ++ numBytes 1 gen
  | .cancelOnPortS sl gen => numBytes 1 sl ++ numBytes 1 gen
  | .nextWork _ level => numBytes 1 level
  | .load _ sl gen => numBytes 1 sl ++ numBytes 1 gen
  | .done _ sl gen cell => numBytes 1 sl ++ numBytes 1 gen ++ optCellBytes cell
  | .unable _ sl gen reason cell => numBytes 1 sl ++ numBytes 1 gen ++ numBytes 1 reason ++ optCellBytes cell
  | .tag _ sl gen result => numBytes 1 sl ++ numBytes 1 gen ++ resultBytes result
  | .rsv _ lo hi => numBytes 1 lo ++ numBytes 1 hi
  | .rel _ lo hi => numBytes 1 lo ++ numBytes 1 hi
  | .clrt _ => []
  | .keep _ code => numBytes 1 code
  | .assign _ bin cell => numBytes 2 bin ++ optCellBytes cell
  | .clrsus _ cell => numBytes 2 cell
  | .block _ cell => numBytes 2 cell
  | .unblk _ cell => numBytes 2 cell
  | .quar _ bin => numBytes 2 bin
  | .unquar _ bin => numBytes 2 bin
  | .setcmp _ bin states => numBytes 2 bin ++ listBytes states
  | .move _ bin cell authority => numBytes 2 bin ++ numBytes 2 cell ++ numBytes 1 authority
  | .frel _ crane lo hi => numBytes 1 crane ++ numBytes 1 lo ++ numBytes 1 hi
  | .stop _ crane => numBytes 1 crane
  | .creep _ crane => numBytes 1 crane
  | .crend _ crane => numBytes 1 crane
  | .whold _ zones => listBytes zones
  | .wres _ => []
  | .frst _ zone => numBytes 1 zone
  | .sopen _ shutter => numBytes 1 shutter
  | .setParam _ parameter value =>
    numBytes 1 parameter ++ numBytes ((paramOf parameter).elim 3 paramWidth) value
  | .rstrt _ => []
  | .assemblerRefusal _ => []
  | .unknownKind _ => []
  | .messageComplete _ => []
  | .overlengthMessage _ => []
  | .lineBreak _ => []
  | .transmitComplete _ => []
  | .positionSample _ => []
  | .inputExcursion _ _ _ => []
  | .filterWindow _ _ => []
  | .keepaliveExpiry _ => []
  | .progressTimerExpiry _ => []
  | .verificationIntervalExpiry => []
  | .loopSample _ _ _ => []
  | .clearanceTimerExpiry _ => []
  | .travelTimerExpiry _ => []
  | .limitEdge _ _ _ => []
  | .fireResetInput => []
  | .generatorTick => []
  | .powerOn => []
  | .lossOfMainSupply => []
  | .resetAsserted => []
  | .resetReleased _ _ => []
  | .characterReceived _ _ => []
  | .breakEnd _ => []

/-- A SET names a parameter, and its value fits the parameter's field (R202); every other command passes. -/
def setFits : Instr → Bool
  | .setParam _ parameter value => (paramOf parameter).any (fun q => decide (value < 256 ^ paramWidth q))
  | _ => true

/-- The level of the manual-release input that a command carries: RDZONE reads it as the request is taken (R186). No other request
reads a field line, and `false` stands for them. -/
def pinLevel : Instr → Bool
  | .rdzone _ read => read.manualRelease
  | _ => false

/-- The command that a body of kind `k` spells on port `p`, or the reason why it spells none (R190, R191, R197 step 4). `level` is
the manual-release input as the request is taken, which no body spells (R186). -/
def commandOf (p : Port) (k : Kind) (level : Bool) (body : List Byte) : Except Reason Instr :=
  match k with
  | .stat => (bodyNone body).map (fun _ => .stat p)
  | .rdbin => (bodyNum 2 body).map (.rdbin p)
  | .rdcell => (bodyNum 2 body).map (.rdcell p)
  | .rdord => (bodyNum2 1 1 body).map (fun a => .rdord p a.1 a.2)
  | .rdcrn => (bodyNum 1 body).map (.rdcrn p)
  | .rdseg => (bodyNum 1 body).map (.rdseg p)
  | .rdzone => (bodyNum 1 body).map (fun z => .rdzone p ⟨z, level⟩)
  | .fetch => (bodyFetch body).map (fun a => .fetch p a.bin a.station a.picks a.loan a.authority)
  | .pick => (bodyNum2 2 1 body).map (fun a => .pick p a.1 a.2)
  | .unpick => (bodyNum2 2 1 body).map (fun a => .unpick p a.1 a.2)
  | .slot => (bodyNum 1 body).map (.slot p)
  | .place => (bodyNum2 2 1 body).map (fun a => .place p a.1 a.2)
  | .unclaim => (bodyNum2 2 1 body).map (fun a => .unclaim p a.1 a.2)
  | .relbay => (bodyNum2 1 1 body).map (fun a => .relbay p a.1 a.2)
  | .cancel => (bodyNum2 1 1 body).map (fun a => if p = .S then .cancelOnPortS a.1 a.2 else .cancel p a.1 a.2)
  | .next => (bodyNum 1 body).map (.nextWork p)
  | .load => (bodyNum2 1 1 body).map (fun a => .load p a.1 a.2)
  | .done => (bodyDone body).map (fun a => .done p a.slot a.gen a.cell)
  | .unable => (bodyUnable body).map (fun a => .unable p a.slot a.gen a.reason a.cell)
  | .tag => (bodyTag body).map (fun a => .tag p a.slot a.gen a.result)
  | .rsv => (bodyNum2 1 1 body).map (fun a => .rsv p a.1 a.2)
  | .rel => (bodyNum2 1 1 body).map (fun a => .rel p a.1 a.2)
  | .clrt => (bodyNone body).map (fun _ => .clrt p)
  | .keep => (bodyNum 1 body).map (.keep p)
  | .assign => (bodyAssign body).map (fun a => .assign p a.1 a.2)
  | .clrsus => (bodyNum 2 body).map (.clrsus p)
  | .block => (bodyNum 2 body).map (.block p)
  | .unblk => (bodyNum 2 body).map (.unblk p)
  | .quar => (bodyNum 2 body).map (.quar p)
  | .unquar => (bodyNum 2 body).map (.unquar p)
  | .setcmp => (bodySetcmp body).map (fun a => .setcmp p a.1 a.2)
  | .move => (bodyNum3 2 2 1 body).map (fun a => .move p a.1 a.2.1 a.2.2)
  | .frel => (bodyNum3 1 1 1 body).map (fun a => .frel p a.1 a.2.1 a.2.2)
  | .stop => (bodyNum 1 body).map (.stop p)
  | .creep => (bodyNum 1 body).map (.creep p)
  | .crend => (bodyNum 1 body).map (.crend p)
  | .whold => (bodyZones body).map (.whold p)
  | .wres => (bodyNone body).map (fun _ => .wres p)
  | .frst => (bodyNum 1 body).map (.frst p)
  | .sopen => (bodyNum 1 body).map (.sopen p)
  | .set => (bodySet body).map (fun a => .setParam p a.1 a.2)
  | .rstrt => (bodyNone body).map (fun _ => .rstrt p)

end Sys2Proof.Machine
end

