-- ==== Sys2Proof/Certificates/Slice0/Obligations.lean ====
section
/-! DEFINITION. The claims about the part. Each names in its docstring the rules it formalises; a claim that rests on a choice
of the model says so and names the log entry. -/

open Sys2Proof Sys2Proof.Machine

/-! ## The step, the start, and what every step keeps -/

/-- Step takes the command at the front of the queue; on an empty queue a millisecond passes while the part runs, and
nothing changes while it does not (the model's choice, log 3; R205). -/
def Obligations.StepTakesTheFrontCommand : Prop :=
  (∀ s c rest, s.pending = c :: rest → step s = exec c { s with pending := rest }) ∧
    (∀ s, s.pending = [] → s.running = true → step s = .next s.elapse) ∧
    (∀ s, s.pending = [] → s.running = false → step s = .next s)

/-- The state after reset is sound: canonical tables, a safe rail, permits as their conditions hold, trip records, ports and
settings within their bounds, and the laws of the directory, the orders, the scheduler, the zones and the shutters. The state
after reset is a cold start: the directory of R39, the empty order table of R64, the
crane records of R112, free and open segments (R126), the scheduler of R163, zones IN-SERVICE, loops NORMAL and generators at
the start of their periods (R187), lines LOW (R202), ports as R201 gives, indicator COLD (R206). That reset is a power-on start,
and the levels of its field lines, with the straps' rate of 19,200 bit/s (R188) and shutters OPEN (R187), are the model's choice
(log 4). -/
def Obligations.ResetIsSoundAndCold : Prop :=
  (State.reset.tablesWf = true ∧ RailSound State.reset ∧ PermitSound State.reset ∧
    EnvelopeHeld State.reset ∧ (∀ c, TripSound (State.reset.crane c)) ∧ (∀ p, PortSound (State.reset.port p)) ∧
      SettingsSound State.reset ∧ LedgerSound State.reset ∧ SchedSound State.reset ∧ FireSound State.reset) ∧
  ((∀ n, State.reset.bin n = ⟨.unregistered, false, List.replicate 16 .occupied, none⟩) ∧
    (∀ n, State.reset.cell n = ⟨.unverified, none, 0⟩) ∧
    (∀ st b, State.reset.bay st b = ⟨.empty, false, false⟩) ∧
    (∀ i, State.reset.slot i = ⟨0, none⟩) ∧ State.reset.counter = 0 ∧
    (∀ c, (State.reset.crane c).ref = none ∧ (State.reset.crane c).counter = 0 ∧
      (State.reset.crane c).history = List.replicate 8 0 ∧ (State.reset.crane c).dN8 = 0 ∧
      (State.reset.crane c).speed = 0 ∧ (State.reset.crane c).direction = .none ∧ (State.reset.crane c).margin = 150 ∧
      (State.reset.crane c).envLo = 2400 * endSegment c ∧ (State.reset.crane c).envHi = 2400 * endSegment c + 2399 ∧
      (State.reset.crane c).active = none ∧ (State.reset.crane c).lastCompleted = none ∧
      (State.reset.crane c).lastLevel = 0 ∧ (State.reset.crane c).waiting = false ∧
      (State.reset.crane c).tripLatched = true ∧ (State.reset.crane c).tripFirst = some .start ∧
      (State.reset.crane c).tripCauses = [.start] ∧ (State.reset.crane c).window = .stopped ∧
      (State.reset.crane c).keepalive = .stopped ∧ (State.reset.crane c).creep = false ∧
      (State.reset.crane c).permit = false ∧ (State.reset.crane c).carried = none ∧
      (State.reset.crane c).orphan = false ∧ (State.reset.crane c).touchFirst = endSegment c ∧
      (State.reset.crane c).touchLast = endSegment c) ∧
    (∀ n, State.reset.seg n = ⟨none, .open⟩) ∧
    State.reset.sched = ⟨60000, ⟨0, 0, false, false⟩, ⟨0, 0, false, false⟩, 0, .normal, [0, 1, 2, 3]⟩ ∧
    (∀ z, State.reset.zone z = ⟨.inService, false, none⟩) ∧ (∀ z, State.reset.loop z = ⟨.normal, none, 0, none, none⟩) ∧
    (∀ k, State.reset.shutter k = ⟨.open, none, false, true⟩ ∧ State.reset.gen k = ⟨0, false⟩) ∧
    (∀ n, State.reset.line n = .low) ∧ State.reset.settings = .default ∧
    (∀ p, (State.reset.port p).rate = .r19200 ∧ (State.reset.port p).afterBreak = false ∧
      (State.reset.port p).pendingLoss = false ∧ (State.reset.port p).stopped = false ∧ (State.reset.port p).fifo = [] ∧ (State.reset.port p).partialMsg = none ∧ (State.reset.port p).item = none ∧
      (State.reset.port p).slot = none ∧ (State.reset.port p).sending = none ∧ (State.reset.port p).queue = [] ∧
      (State.reset.port p).flags = .clear) ∧
    State.reset.coldStart = .cold ∧ State.reset.running = true)

/-- Every step keeps every table in its canonical form, in which equal tables are equal data (the model's form of the
tables). Every step keeps each crane's trip record sound: a first cause exactly while the latch is set, and among the
causes (R102). Every step keeps each port within its bounds: 64 characters (R194), 16 notices (R199), a length of at most 48 and
an assembler that hunts while it holds an item (R195, R196). Every step keeps every numeric parameter in its range of R202, and
the loop thresholds in order (R203); and with them each crane's credits at 0 to 8 and its cursor within its share (R150, R153).
Every step keeps the alarm latch set exactly in CLEARING, SEALING, SEALED and OBSTRUCTED, the clearance timer running in CLEARING
alone (R166), and the travel timer running exactly in CLOSING and OPENING (R174). -/
def Obligations.StepKeepsEveryRecordSound : Prop :=
  (∀ s t, s.tablesWf = true → step s = .next t → t.tablesWf = true) ∧
  (∀ s t, (∀ c, TripSound (s.crane c)) → step s = .next t → ∀ c, TripSound (t.crane c)) ∧
  (∀ s t, (∀ p, PortSound (s.port p)) → step s = .next t → ∀ p, PortSound (t.port p)) ∧
  (∀ s t, SettingsSound s → step s = .next t → SettingsSound t) ∧
  (∀ s t, SettingsSound s → SchedSound s → step s = .next t → SchedSound t) ∧
  (∀ s t, s.tablesWf = true → FireSound s → step s = .next t → FireSound t)

/-- Every step keeps the rail safe: no SEALED segment is held, each crane's holding is one run of segments, and every
segment of crane A lies below every segment of crane B. -/
def Obligations.StepKeepsTheRailSafe : Prop :=
  ∀ s t, RailSound s → step s = .next t → RailSound t

/-- Every step leaves each drive permit on exactly when the conditions of R104 hold: the trip latch clear, or FIRE its only
cause with creep permitted; the keepalive RUNNING; the crane REFERENCED, or holding its end segment. -/
def Obligations.StepKeepsPermits : Prop :=
  ∀ s t, RailSound s → PermitSound s → step s = .next t → PermitSound t

/-! ## Requests in general -/

/-- A request body read from its bytes is the command written to them: for every request command whose operands fit their
fields, the body it is sent with spells it (R190), with the level of the manual-release input that RDZONE reads (R186; log 17).
A CANCEL on port S is the service request of R60 (R191). -/
def Obligations.BodyRoundTrip : Prop :=
  ∀ c p k, requestOf c = some (p, k) → c.wellFormed = true → setFits c = true →
    commandOf p k (pinLevel c) (requestBody c) =
      .ok (match c with
        | .cancel .S sl gen => .cancelOnPortS sl gen
        | _ => c)

/-- A good message served is the command that its body spells: with the message as the finished item of a port that can
serve it, any request command of that port and kind runs the spelled command, once the item is taken and the assembler has
gone on (R196, R197; log 1, log 6). RDZONE's input level is the command's own (R186; log 17). A good message whose kind is taken on its port but whose body spells no command is refused,
with LENGTH where the body has the wrong length and RANGE where a coded field cannot be read; nothing else changes but that
the item is taken (R197 step 4). -/
def Obligations.ItemsAreServedByTheirBodies : Prop :=
  (∀ s p k body c d, s.running = true → (s.port p).slot = none → (s.port p).stopped = false →
    (s.port p).item = some (.message (kindCode k) body) → commandOf p k (pinLevel d) body = .ok c → requestOf d = some (p, k) →
    exec d s = exec c (s.setPort p (s.port p).takeItem)) ∧
  (∀ s p k body r d, s.running = true → (s.port p).slot = none → (s.port p).stopped = false →
    (s.port p).item = some (.message (kindCode k) body) → p ∈ kindPorts k → commandOf p k (pinLevel d) body = .error r →
    requestOf d = some (p, k) →
    (r = .length ∨ r = .range) ∧ exec d s = .next (refused (s.setPort p (s.port p).takeItem) p k r none))

/-- Every request that finds its server free is taken or refused, and a refused request leaves the part as it was but for
its response (00_scope 4.2.7, R197). An accepted WHOLD asks for the evaluation of waiting cranes (R161). The end of a
request: the blocks stand as the owner left them but for the cranes' waiting flags, which only fall; every receiver and
assembler stands; the response is sent, or waits behind the message being sent (R197, R198). -/
def Obligations.RequestsAreTakenOrRefusedAndEnd : Prop :=
  (∀ c p k s, requestOf c = some (p, k) → s.serves p →
    (∃ fields u, exec c s = .next (conclude s p k (k == .whold) (u, .ack fields))) ∨
      ∃ r d, exec c s = .next (refused s p k r d)) ∧
  (∀ s p k always u fields, (u.port p).sending = (s.port p).sending →
    SameBlocks u (conclude s p k always (u, .ack fields)) ∧
      SameReceivers u (conclude s p k always (u, .ack fields)) ∧
      Answered s (conclude s p k always (u, .ack fields)) p (.ack k fields) ∧
      ∀ c, ((conclude s p k always (u, .ack fields)).crane c).waiting = true → (u.crane c).waiting = true)

/-- A request kind that is not taken on its port is refused: with AUTHORITY when every port that takes it has an authority
level numerically lower than this port's, else with ROLE (R197 step 3). A request server takes nothing while its response
slot holds a response or after an accepted RSTRT (R197, R205); a command of a kind other than the item the assembler holds
changes nothing (the model's choice, log 1). While the part does not run, no command has an effect but those of main supply and
the reset input (R205, DEDUCED for the commands that cannot then occur: log 2). -/
def Obligations.WhatAPortDoesNotTake : Prop :=
  (∀ c p k s, requestOf c = some (p, k) → s.serves p → p ∉ kindPorts k →
    exec c s =
      .next (refused s p k (if ∀ q ∈ kindPorts k, portLevel q < portLevel p then .authority else .role) none)) ∧
  (∀ c p k s, requestOf c = some (p, k) →
    ((s.port p).slot ≠ none ∨ (s.port p).stopped = true ∨
      ∃ i, (s.port p).item = some i ∧ ∀ body, i ≠ .message (kindCode k) body) →
    exec c s = .next s) ∧
  (∀ c s, s.running = false → c ≠ .powerOn → c ≠ .lossOfMainSupply → c ≠ .resetAsserted →
    (∀ v l, c ≠ .resetReleased v l) → exec c s = .next s)

/-- A notice offered to a queue (R199): it replaces the entry of its kind and subject in place, else joins at the tail of a
queue of fewer than 16, else is lost and sets NOTICE-LOST. The subject is the bin of an ARRIVE, the handle of an ENDED or STALL,
the zone of a ZONE or EVAC, the crane of a WAIT, TRIP or VLAG, the shutter of a SHUT, the cell of a SUSP, whatever else the
notice carries; notices of two kinds never replace one another. -/
def Obligations.NoticeJoinsReplacesOrIsLost : Prop :=
  (∀ n m : Notice, n.sameAs m = true ↔
    match n, m with
      | .arrive b _ _ _, .arrive b' _ _ _ => b = b'
      | .ended h _ _, .ended h' _ _ => h = h'
      | .zone z _, .zone z' _ => z = z'
      | .wait c _, .wait c' _ => c = c'
      | .evac z _, .evac z' _ => z = z'
      | .trip c _ _ _, .trip c' _ _ _ => c = c'
      | .shut k _ _, .shut k' _ _ => k = k'
      | .susp n _, .susp n' _ => n = n'
      | .stall h _ _ _ _, .stall h' _ _ _ _ => h = h'
      | .vlag c _ _, .vlag c' _ _ => c = c'
      | _, _ => False) ∧
  ∀ (q : LinkPort) (n : Notice),
    ((∃ m ∈ q.queue, n.sameAs m = true) →
      q.offer n = { q with queue := (q.offer n).queue } ∧
        ∀ i : Nat, (q.offer n).queue[i]? = (q.queue[i]?).map (fun m => if n.sameAs m then n else m)) ∧
    ((∀ m ∈ q.queue, n.sameAs m = false) → q.queue.length < 16 → q.offer n = { q with queue := q.queue ++ [n] }) ∧
    ((∀ m ∈ q.queue, n.sameAs m = false) → 16 ≤ q.queue.length →
      q.offer n = { q with flags := { q.flags with noticeLost := true } })

/-! ## The bin directory (chapter 2) -/

/-- RDBIN and RDCELL answer with the fields of R36 and R37 in their order, and change nothing; a number out of bounds is
refused with RANGE (R9). RDORD answers in its two forms and changes nothing: the live order's fields of R63 in their order;
else, for a free slot, variant 0 and its generation; else variant 1 and the handle that the slot holds. The bytes of flags are
the model's reading (log 8), and so are RDBIN's sixteen compartment states sent with no count, its bay fields with a presence
byte each, and the byte before the progress timer in RDORD, which says whether it runs (log 9). -/
def Obligations.DirectoryAndOrderReadsAnswer : Prop :=
  (∀ s p n, s.serves p →
    (n < 4096 → (∀ st b, (s.bin n).place ≠ .atBay st b) →
      exec (.rdbin p n) s =
        .next (acked s p .rdbin
          (([.named (s.bin n).place.code] : List Field) ++ optField .place (s.bin n).place.location ++ [flagField (s.bin n).quarantine] ++
            (s.bin n).comps.map (fun c => .named c.code) ++ ([.num 1 ((s.bin n).comps.count .free)] : List Field) ++
            optField .handle (s.bin n).order ++ ([.absent, .absent, .absent] : List Field)) s)) ∧
    (∀ st b, n < 4096 → (s.bin n).place = .atBay st b →
      exec (.rdbin p n) s =
        .next (acked s p .rdbin
          (([.named 3, .present, .place (.bay st b), flagField (s.bin n).quarantine] : List Field) ++
            (s.bin n).comps.map (fun c => .named c.code) ++ ([.num 1 ((s.bin n).comps.count .free)] : List Field) ++
            optField .handle (s.bin n).order ++
            ([.present, .named (s.bay st b).state.code, .present, flagField (s.bay st b).keep, .present,
              flagField (s.bay st b).stowWanted] : List Field)) s)) ∧
    (4096 ≤ n → exec (.rdbin p n) s = .next (refused s p .rdbin .range none)) ∧
    (n < 3840 →
      exec (.rdcell p n) s =
        .next (acked s p .rdcell
          (([.named (s.cell n).state.code] : List Field) ++ optField (.num 2) (s.cell n).state.bin ++
            optField .handle (s.cell n).state.destOf ++ optField (fun e => .num 2 e.toNat) (s.cell n).stamp ++
            ([.num 1 (s.cell n).unread, .num 1 (zoneOfCell n)] : List Field)) s)) ∧
    (3840 ≤ n → exec (.rdcell p n) s = .next (refused s p .rdcell .range none))) ∧
  (∀ s p i g, s.serves p → i < 64 →
    (∀ o, s.slot i = ⟨g, some o⟩ →
      exec (.rdord p i g) s =
        .next (acked s p .rdord
          (([.named 0, .handle ⟨i, g⟩, .named o.kind.code, .named o.purpose.code, .named o.state.code] : List Field) ++
            optField (.num 2) o.bin ++ ([.place o.source] : List Field) ++ optField .place o.dest ++ optField (.num 1) o.destBay ++
            ([.num 1 (craneCode o.crane), .named o.issuer.code, .num 1 o.authority, .num 4 o.seq.toNat, .num 1 o.bypass] : List Field) ++
            optField .loan o.loan ++ ([.num 1 o.level, flagField o.stalled] : List Field) ++
            optField (fun ms => .num 2 ((ms + 999) / 1000)) o.timer) s)) ∧
    (∀ g', s.slot i = ⟨g', none⟩ →
      exec (.rdord p i g) s = .next (acked s p .rdord [.named 1, .named 0, .num 1 g'] s)) ∧
    (∀ g' o, g' ≠ g → s.slot i = ⟨g', some o⟩ →
      exec (.rdord p i g) s = .next (acked s p .rdord [.named 1, .named 1, .handle ⟨i, g'⟩] s)))

/-- ASSIGN places a bin in a cell or unregisters it (R31): its compartments revert, its old cell becomes UNVERIFIED or its
bay EMPTY, the new cell records it with no stamp and count 0, its quarantine flag is kept, and no other record changes.
ASSIGN is refused with BIN-BUSY for a bin that has a live order or is ON-CRANE, and then with CELL-STATE for a cell that is
neither EMPTY, UNVERIFIED nor SUSPECT nor the bin's own (R31). No notice is raised: ASSIGN ends with its response alone, and no
waiting crane is told of the bay it empties. -/
def Obligations.AssignPlacesTheBin : Prop :=
  (∀ s b cell, s.serves .S → b < 4096 → (∀ n, cell = some n → n < 3840) → (s.bin b).order = none →
    (∀ c, (s.bin b).place ≠ .onCrane c) →
    (∀ n, cell = some n →
      (s.cell n).state = .empty ∨ (s.cell n).state = .unverified ∨ (s.cell n).state = .suspect ∨
        (s.bin b).place = .stored n) →
    ∃ u : State,
      exec (.assign .S b cell) s =
          .next (u.respond .S (.ack .assign
            (match cell with
              | some n => [.named 1, .present, .place (.cell n)]
              | none => [.named 0, .absent]))).pump ∧
        u = { s with bins := u.bins, cells := u.cells, bays := u.bays } ∧
        (∀ m, m ≠ b → u.bin m = s.bin m) ∧
        u.bin b =
          { place := cell.elim .unregistered .stored
            quarantine := (s.bin b).quarantine
            comps := (s.bin b).comps.map (fun c => if c = .pendingPick then .occupied else if c = .claimed then .free else c)
            order := none } ∧
        (∀ n, u.cell n =
          if cell = some n then ⟨.occupied b, none, 0⟩
          else if (s.bin b).place = .stored n then ⟨.unverified, none, 0⟩ else s.cell n) ∧
        (∀ st bay, u.bay st bay = if (s.bin b).place = .atBay st bay then ⟨.empty, false, false⟩ else s.bay st bay)) ∧
  (∀ s b cell, s.serves .S → b < 4096 → (∀ n, cell = some n → n < 3840) →
    (((s.bin b).order ≠ none ∨ ∃ c, (s.bin b).place = .onCrane c) →
      exec (.assign .S b cell) s = .next (refused s .S .assign .binBusy none)) ∧
    ((s.bin b).order = none → (∀ c, (s.bin b).place ≠ .onCrane c) →
      (∃ n, cell = some n ∧ (s.bin b).place ≠ .stored n ∧
        ((∃ b', (s.cell n).state = .occupied b') ∨ (∃ h, (s.cell n).state = .reserved h) ∨ (s.cell n).state = .blocked)) →
      exec (.assign .S b cell) s = .next (refused s .S .assign .cellState none)))

/-- BLOCK takes an EMPTY, UNVERIFIED or SUSPECT cell to BLOCKED, keeping its stamp, with no notice; a BLOCKED cell stays so;
an OCCUPIED or RESERVED cell is refused with CELL-STATE. The scans and the verification cursor pass a BLOCKED cell over
(R33, R27). CLRSUS takes a SUSPECT cell and UNBLK a BLOCKED one to UNVERIFIED with no stamp and count 0, and each is refused with
CELL-STATE for a cell in any other state (R32). QUAR sets and UNQUAR clears the bin's quarantine flag, in every bin state
and whatever the flag was, and nothing else (R34). The byte of the flag in the ACK is the model's reading (log 8). -/
def Obligations.ServiceSetsCellsAndFlags : Prop :=
  ((∀ s n, s.serves .S → n < 3840 →
    ((s.cell n).state = .empty ∨ (s.cell n).state = .unverified ∨ (s.cell n).state = .suspect →
      exec (.block .S n) s = .next (acked s .S .block [.named 5] (s.setCell n ⟨.blocked, (s.cell n).stamp, 0⟩))) ∧
    ((s.cell n).state = .blocked → exec (.block .S n) s = .next (acked s .S .block [.named 5] s)) ∧
    ((∃ b, (s.cell n).state = .occupied b) ∨ (∃ h, (s.cell n).state = .reserved h) →
      exec (.block .S n) s = .next (refused s .S .block .cellState none))) ∧
    ∀ (s : State) st c n, (s.cell n).state = .blocked →
      s.destAccepts st n = false ∧ s.homeAccepts c n = false ∧ s.returnAccepts st n = false ∧ s.cursorTakes n = false) ∧
  (∀ s n, s.serves .S → n < 3840 →
    ((s.cell n).state = .suspect →
      exec (.clrsus .S n) s = .next (acked s .S .clrsus [.named 0] (s.setCell n ⟨.unverified, none, 0⟩))) ∧
    ((s.cell n).state ≠ .suspect → exec (.clrsus .S n) s = .next (refused s .S .clrsus .cellState none)) ∧
    ((s.cell n).state = .blocked →
      exec (.unblk .S n) s = .next (acked s .S .unblk [.named 0] (s.setCell n ⟨.unverified, none, 0⟩))) ∧
    ((s.cell n).state ≠ .blocked → exec (.unblk .S n) s = .next (refused s .S .unblk .cellState none))) ∧
  (∀ s b, s.serves .S → b < 4096 →
    exec (.quar .S b) s =
        .next (acked s .S .quar [flagField true] (s.setBin b { s.bin b with quarantine := true })) ∧
      exec (.unquar .S b) s =
        .next (acked s .S .unquar [flagField false] (s.setBin b { s.bin b with quarantine := false })))

/-- Every step keeps the laws of the directory and the order table. Each bin is recorded by exactly the cell, bay or crane that it
names, a PENDING-PICK compartment lies only in a bin AT-BAY or of a live FETCH, a CLAIMED one only in a bin AT-BAY, and a bin has
sixteen compartments (R17, R18, R22). At most 64 orders are live, each with the bin, the source and the destination that its kind
gives (R43, R44), a bin's live order handle names the one live order whose bin it is, and a cell is RESERVED for an order exactly
when it is the destination of that live STOW or MOVE (R20, R47); the bin of an order not yet LOADED stands at its source (R44). An order is DISPATCHED or LOADED exactly while it is its crane's active order, a crane has
at most one, and it carries the bin of a LOADED one and nothing for a DISPATCHED one; its orphan flag is set exactly while it
carries a bin and has no active order (R46, R61, R62). Tables are in their canonical form before the step. -/
def Obligations.StepKeepsTheLedger : Prop :=
  ∀ s t, s.tablesWf = true → LedgerSound s → step s = .next t → LedgerSound t

/-- SETCMP replaces the sixteen compartment states of a bin that has no live order and no pending pick or claim, and changes
no bay and creates no order; an entry other than FREE or OCCUPIED, or a count other than 16, refuses it with RANGE, and then
a live order, a pending pick or a claim with BIN-BUSY (R35). -/
def Obligations.SetcmpSetsCompartments : Prop :=
  ∀ s b (l : List Nat), s.serves .S → b < 4096 →
    (l.length = 16 → (∀ x ∈ l, x < 2) → (s.bin b).order = none → .pendingPick ∉ (s.bin b).comps →
      .claimed ∉ (s.bin b).comps →
      exec (.setcmp .S b l) s =
        .next (acked s .S .setcmp [.num 1 (l.count 0)]
          (s.setBin b { s.bin b with comps := l.map (fun x => if x = 0 then .free else .occupied) }))) ∧
    (l.length = 16 → (∀ x ∈ l, x < 2) →
      ((s.bin b).order ≠ none ∨ .pendingPick ∈ (s.bin b).comps ∨ .claimed ∈ (s.bin b).comps) →
      exec (.setcmp .S b l) s = .next (refused s .S .setcmp .binBusy none)) ∧
    (l.length ≠ 16 ∨ (∃ x ∈ l, 2 ≤ x) → exec (.setcmp .S b l) s = .next (refused s .S .setcmp .range none))

/-- The four moves of R30. A load from a cell leaves the cell EMPTY with its stamp; a load from a bay empties the bay and
reverts the bin's claims and pending picks; a delivery records the bin in its bay or cell; the crane's carried bin follows;
and nothing else changes. -/
def Obligations.BinsMoveWhole : Prop :=
  ∀ (s : State) c n st bay b keep,
    (s.loadFromCell c n b =
      ((s.setCell n ⟨.empty, (s.cell n).stamp, 0⟩).setBin b { s.bin b with place := .onCrane c }).setCrane c
        { s.crane c with carried := some b }) ∧
    (∀ t, t = s.loadFromBay c st bay b →
      t = { s with bins := t.bins, bays := t.bays, craneA := t.craneA, craneB := t.craneB } ∧
        t.bay st bay = ⟨.empty, false, false⟩ ∧ (∀ st' bay', (st', bay') ≠ (st, bay) → t.bay st' bay' = s.bay st' bay') ∧
        (t.bin b).place = .onCrane c ∧ (t.bin b).order = (s.bin b).order ∧
        (t.bin b).quarantine = (s.bin b).quarantine ∧
        (∀ i : Nat, (t.bin b).comps[i]? = ((s.bin b).comps[i]?).map
          (fun x : Comp => if x = .claimed then .free else if x = .pendingPick then .occupied else x)) ∧
        (∀ m, m ≠ b → t.bin m = s.bin m) ∧
        t.crane c = { s.crane c with carried := some b } ∧ t.crane (otherCrane c) = s.crane (otherCrane c)) ∧
    (s.deliverToBay c st bay b keep =
      ((s.setBay st bay ⟨.occupied b, keep, (s.bay st bay).stowWanted⟩).setBin b
        { s.bin b with place := .atBay st bay }).setCrane c { s.crane c with carried := none }) ∧
    (s.deliverToCell c n b =
      ((s.setCell n ⟨.occupied b, (s.cell n).stamp, 0⟩).setBin b { s.bin b with place := .stored n }).setCrane c
        { s.crane c with carried := none })

/-! ## The order table (chapter 3) -/

/-- A creation takes the lowest free slot with the next generation and the creation counter's value, which then increases by
one (R42, R45, R51); and age is compared across the counter's wrap: of two orders whose numbers lie less than 2^31 apart,
the one created first is the older (R45). -/
def Obligations.CreationNumbersTheOrder : Prop :=
  (∀ (s : State) o t h, s.create o = some (t, h) →
    h.slot < 64 ∧ (s.slot h.slot).order = none ∧ (∀ j, j < h.slot → (s.slot j).order ≠ none) ∧
      h.gen = ((s.slot h.slot).gen + 1) % 256 ∧ t.slot h.slot = ⟨h.gen, some { o with seq := s.counter }⟩ ∧
      (∀ j, j ≠ h.slot → t.slot j = s.slot j) ∧ t.counter = s.counter + 1 ∧
      ∀ b, o.bin = some b → (t.bin b).order = some h) ∧
    ∀ (p q : Order) (n : Nat), 0 < n → n < 2147483648 → q.seq = p.seq + BitVec.ofNat 32 n →
      p.older q = true ∧ q.older p = false

/-- The end of an order (R55), with the compartments of R22, the bays of R28, the crane's handles and orphan flag of R61,
the freed slot that keeps its generation, the ENDED notice of R57, and nothing else. -/
def Obligations.OrderEnds : Prop :=
  ∀ (s : State) i o f x t, (s.slot i).order = some o → t = s.endOrder i f x →
    t = { s with bins := t.bins, cells := t.cells, bays := t.bays, slots := t.slots, craneA := t.craneA, craneB := t.craneB,
                 portC := t.portC } ∧
    (∀ j, t.slot j = if j = i then ⟨(s.slot i).gen, none⟩ else s.slot j) ∧
    (∀ b, (t.bin b).order = if o.bin = some b then none else (s.bin b).order) ∧
    (∀ b, (t.bin b).place = (s.bin b).place ∧ (t.bin b).quarantine = (s.bin b).quarantine) ∧
    (∀ b, (t.bin b).comps =
      if o.bin = some b ∧ o.kind = .fetch ∧ (s.bin b).place.isAtBay = false then
        (s.bin b).comps.map (fun c => if c = .pendingPick then .occupied else c)
      else (s.bin b).comps) ∧
    (∀ n, t.cell n =
      if (o.kind = .stow ∨ o.kind = .move) ∧ o.dest = some (.cell n) ∧ (s.cell n).state = .reserved ⟨i, (s.slot i).gen⟩ then
        ⟨.empty, (s.cell n).stamp, 0⟩
      else s.cell n) ∧
    (∀ st bay, t.bay st bay =
      if o.kind = .fetch ∧ o.dest = some (.station st) ∧ o.destBay = some bay ∧
          (s.bay st bay).state = .inbound ⟨i, (s.slot i).gen⟩ then ⟨.empty, false, false⟩
      else if (o.kind = .stow ∨ o.kind = .move) ∧ o.source = .bay st bay ∧
          o.bin.map BayState.outbound = some (s.bay st bay).state then
        { s.bay st bay with state := .occupied (o.bin.getD 0) }
      else s.bay st bay) ∧
    (∀ c, t.crane c =
      if c = o.crane ∧ (s.crane c).active = some ⟨i, (s.slot i).gen⟩ then
        { s.crane c with
          active := none
          lastCompleted := some ⟨i, (s.slot i).gen⟩
          orphan := (s.crane c).orphan || decide (o.state = .loaded ∧ f ≠ .complete) }
      else s.crane c) ∧
    t.portC =
      match x with
      | some y =>
        if o.issuer = .C ∧ o.kind = .fetch then s.portC.offer (.ended ⟨i, (s.slot i).gen⟩ o.loan y) else s.portC
      | none => s.portC

/-- CANCEL on port C ends a live QUEUED FETCH that port C issued as CANCELLED, with no ENDED notice, and is refused with
ORDER-STATE in every other case (R59). CANCEL on port S ends any live order: CANCELLED when it is QUEUED or DISPATCHED,
FAILED when it is LOADED, with outcome CANCELLED-SERVICE where an ENDED notice is due; a handle that names no live order is
refused with ORDER-STATE (R60). -/
def Obligations.CancelEndsAnOrder : Prop :=
  (∀ s i g, s.serves .C → i < 64 →
    (∀ o, s.orderOf ⟨i, g⟩ = some o → o.issuer = .C → o.kind = .fetch → o.state = .queued →
      exec (.cancel .C i g) s = .next (acked s .C .cancel [.handle ⟨i, g⟩] (s.endOrder i .cancelled none))) ∧
    ((∀ o, s.orderOf ⟨i, g⟩ = some o → ¬(o.issuer = .C ∧ o.kind = .fetch ∧ o.state = .queued)) →
      exec (.cancel .C i g) s = .next (refused s .C .cancel .orderState none))) ∧
  (∀ s i g, s.serves .S → i < 64 →
    (∀ o, s.orderOf ⟨i, g⟩ = some o →
      exec (.cancelOnPortS i g) s =
        .next (acked s .S .cancel [.handle ⟨i, g⟩, .final (if o.state = .loaded then .failed else .cancelled)]
          (s.endOrder i (if o.state = .loaded then .failed else .cancelled) (some .cancelledService)))) ∧
    (s.orderOf ⟨i, g⟩ = none → exec (.cancelOnPortS i g) s = .next (refused s .S .cancel .orderState none)))

/-- MOVE creates a QUEUED order of kind MOVE and purpose SERVICE for a STORED or AT-BAY bin with no live order, to an EMPTY
cell which it reserves, while the wing is NORMAL and a slot is free: crane by the split rule or the station, authority at
least 1 (R48, R52, R53). MOVE's refusals, in their order: BIN-BUSY, BIN-STATE, CELL-STATE, WING-HELD, TABLE-FULL (R49, R53).
-/
def Obligations.MoveCreatesAnOrder : Prop :=
  (∀ s b n a i source crane level, s.serves .S → b < 4096 → n < 3840 → a < 4 → (s.bin b).order = none →
    ((∃ m, (s.bin b).place = .stored m ∧ source = .cell m ∧
        crane = (if m / 24 < s.settings.split then .A else .B) ∧ level = m % 24 / 2) ∨
      ∃ st bay, (s.bin b).place = .atBay st bay ∧ source = .bay st bay ∧ crane = craneOf st ∧ level = n % 24 / 2) →
    (s.cell n).state = .empty → s.sched.wing = .normal → s.freeSlot = some i →
    ∃ u,
      exec (.move .S b n a) s =
          .next (acked s .S .move [.handle ⟨i, ((s.slot i).gen + 1) % 256⟩, .num 1 (craneCode crane), .num 1 (max a 1)] u) ∧
        u = ((((s.setSlot i
          ⟨((s.slot i).gen + 1) % 256,
            some
              { kind := .move, purpose := .service, bin := some b, source := source, dest := some (.cell n), destBay := none
                crane := crane, issuer := .S, authority := max a 1, seq := s.counter, bypass := 0, loan := none
                level := level, state := .queued, stalled := false, timer := none }⟩).setCounter (s.counter + 1)).setBin b
            { s.bin b with order := some ⟨i, ((s.slot i).gen + 1) % 256⟩ }).setCell n
            ⟨.reserved ⟨i, ((s.slot i).gen + 1) % 256⟩, (s.cell n).stamp, 0⟩)) ∧
  (∀ s b n a, s.serves .S → b < 4096 → n < 3840 → a < 4 →
    (((s.bin b).order ≠ none ∨ ∃ c, (s.bin b).place = .onCrane c) →
      exec (.move .S b n a) s = .next (refused s .S .move .binBusy none)) ∧
    ((s.bin b).order = none → ((s.bin b).place = .unregistered ∨ (s.bin b).place = .misplaced) →
      exec (.move .S b n a) s = .next (refused s .S .move .binState none)) ∧
    ((s.bin b).order = none → ((∃ m, (s.bin b).place = .stored m) ∨ ∃ st bay, (s.bin b).place = .atBay st bay) →
      ((s.cell n).state ≠ .empty → exec (.move .S b n a) s = .next (refused s .S .move .cellState none)) ∧
      ((s.cell n).state = .empty → s.sched.wing = .held →
        exec (.move .S b n a) s = .next (refused s .S .move .wingHeld none)) ∧
      ((s.cell n).state = .empty → s.sched.wing = .normal → s.freeSlot = none →
        exec (.move .S b n a) s = .next (refused s .S .move .tableFull none))))

/-- A cell that enters SUSPECT makes the bin it recorded MISPLACED and raises SUSP to port S with that bin; one that enters
BLOCKED does the same without a notice. Both keep the stamp and set the unreadable count to 0; a cell already there stays,
with no notice (R25, R26, R27). Re-destination (R54): the reservation held is released, the scan for the order's state is
made, and the cell it delivers is reserved and becomes the destination, with the level hint for a LOADED order or one whose
source is no cell; with no cell, the destination becomes absent. The rest of the order, and every other record, stays. -/
def Obligations.SuspicionAndRedestination : Prop :=
  (∀ (s : State) n,
    ((s.cell n).state = .suspect → s.enterSuspect n = s) ∧ ((s.cell n).state = .blocked → s.enterBlocked n = s) ∧
    (∀ b, (s.cell n).state = .occupied b →
      s.enterSuspect n =
          ((s.setBin b { s.bin b with place := .misplaced }).setCell n ⟨.suspect, (s.cell n).stamp, 0⟩).raise .S
            (.susp n (some b)) ∧
        s.enterBlocked n = (s.setBin b { s.bin b with place := .misplaced }).setCell n ⟨.blocked, (s.cell n).stamp, 0⟩) ∧
    ((∀ b, (s.cell n).state ≠ .occupied b) →
      ((s.cell n).state ≠ .suspect →
        s.enterSuspect n = (s.setCell n ⟨.suspect, (s.cell n).stamp, 0⟩).raise .S (.susp n none)) ∧
      ((s.cell n).state ≠ .blocked → s.enterBlocked n = s.setCell n ⟨.blocked, (s.cell n).stamp, 0⟩))) ∧
  (∀ (s : State) i g o old r, s.slot i = ⟨g, some o⟩ → o.dest = some (.cell old) →
    r = (if (s.cell old).state = .reserved ⟨i, g⟩ then s.setCell old ⟨.empty, (s.cell old).stamp, 0⟩ else s) →
    (∀ n, (if o.state = .loaded then r.homeScan o.crane else r.destScan (stationOf o.crane)) = some n →
      s.redestine i =
        (r.setCell n ⟨.reserved ⟨i, g⟩, (r.cell n).stamp, 0⟩).setSlot i
          ⟨g, some { o with
            dest := some (.cell n)
            level := if o.state = .loaded ∨ o.source.cellOf = none then n % 24 / 2 else o.level }⟩) ∧
    ((if o.state = .loaded then r.homeScan o.crane else r.destScan (stationOf o.crane)) = none →
      s.redestine i = r.setSlot i ⟨g, some { o with dest := none }⟩))

/-! ## The dispatcher (chapter 4) -/

/-- At the end of an event that took `s` to `t`, a crane whose waiting flag is set, whose orphan flag is clear and which has
no active order is evaluated when the event did what R76 names, read from the two states (log 14): a QUEUED order of the crane
stands in a slot that held no such order, or whose order had another destination; the state of a zone, the holder of a segment,
the state of a shutter, the state of a bay of the crane's station or the wing state differs. If an order is then eligible for
it, its flag falls and WAIT is raised to its port with the number of eligible orders. Idle transmitters then choose (R198), and
nothing else changes. The end of a taken request is such an end, but for ASSIGN, which raises no notice: its response is placed
and the transmitters choose (R31). -/
def Obligations.WaitingCranesAreTold : Prop :=
  (∀ s p k fields u, acked s p k fields u =
    if k = .assign then (u.respond p (.ack k fields)).pump else finish s (u.respond p (.ack k fields))) ∧
  ∀ (s t : State),
    SameBlocks t (finish s t) ∧ (finish s t).portC = t.portC.pump ∧ (finish s t).portS = t.portS.pump ∧
    ∀ x (changed : Prop),
      (changed ↔
        (∃ i o, i < 64 ∧ (t.slot i).order = some o ∧ o.state = .queued ∧ o.crane = x ∧
            ((s.slot i).gen ≠ (t.slot i).gen ∨ ∀ q, (s.slot i).order = some q → q.dest ≠ o.dest)) ∨
          (∃ z, z < 4 ∧ (s.zone z).state ≠ (t.zone z).state) ∨
          (∃ n, n < 42 ∧ (s.seg n).holder ≠ (t.seg n).holder) ∨
          (∃ k, k < 3 ∧ (s.shutter k).state ≠ (t.shutter k).state) ∨
          (∃ b, b < 2 ∧ (s.bay (stationOf x) b).state.code ≠ (t.bay (stationOf x) b).state.code) ∨
          s.sched.wing ≠ t.sched.wing) →
      (changed → (t.crane x).waiting = true → (t.crane x).orphan = false → (t.crane x).active = none →
        0 < (t.eligibleOrders x).length →
        (finish s t).crane x = { t.crane x with waiting := false } ∧
          (finish s t).port (portOf x) =
            ((t.port (portOf x)).offer (.wait x (t.eligibleOrders x).length)).pump) ∧
      ((¬changed ∨ (t.crane x).waiting = false ∨ (t.crane x).orphan = true ∨ (t.crane x).active ≠ none ∨
          (t.eligibleOrders x).length = 0) →
        (finish s t).crane x = t.crane x ∧ (finish s t).port (portOf x) = (t.port (portOf x)).pump)

/-- Which orders are eligible (R68, R69): the QUEUED orders of the crane whose destination is present where a STOW or MOVE needs
one, whose cells and station lie in zones IN-SERVICE, a FETCH with an EMPTY bay at its station, whose route, from the crane's
segment (R8) over every place visited, holds no segment of the other crane and spans no shutter but OPEN ones, and which the
wing allows. What the dispatcher chooses (R70, R71): some order whenever one is eligible; of the lowest authority number; the
orders it passes over are the older ones of that number, each below the cap of 3 and not at the reported level, and only for an
order at that level; and the oldest at that level is taken when every older one is below the cap. The ages compared lie within
half the counter's range, as at most 64 live orders keep them (R45). Dispatch (R74): the order becomes DISPATCHED, its timer
started, its stalled flag clear; a FETCH takes the lowest EMPTY bay of its station, which becomes INBOUND; the OCCUPIED source
bay of a STOW or MOVE becomes OUTBOUND and keeps its flags; the crane's active handle is set, its waiting flag cleared. -/
def Obligations.SelectionAndDispatch : Prop :=
  (∀ (s : State) x o here (visits : Nat → Prop) (calls : Station → Prop) (onRoute : Nat → Prop),
    here = (match (s.crane x).ref with
      | some r => (max 0 (min 100799 r.x)).toNat / 2400
      | none => endSegment x) →
    (visits = fun n => o.kind ≠ .stow ∧ o.source = .cell n ∨ (o.kind = .stow ∨ o.kind = .move) ∧ o.dest = some (.cell n)) →
    (calls = fun st => o.kind = .fetch ∧ o.dest = some (.station st) ∨
      (o.kind = .stow ∨ o.kind = .move) ∧ ∃ b, o.source = .bay st b) →
    (onRoute = fun g => ∃ a b, a ≤ g ∧ g ≤ b ∧ ∀ e, e = a ∨ e = b →
      e = here ∨ (∃ n, visits n ∧ e = 1 + n / 96) ∨ ∃ st, calls st ∧ e = stationSegment st) →
    (s.reachable x o = true ↔
      (∀ n, visits n → (s.zone (zoneOfCell n)).state = .inService) ∧
        (∀ g, onRoute g → (s.seg g).holder ≠ some (otherCrane x)) ∧
        (∀ k, k < 3 → (s.shutter k).state ≠ .open → ¬(onRoute (10 * k + 10) ∧ onRoute (10 * k + 11))) ∧
        (s.sched.wing = .normal ∨ o.kind = .verify ∧ ∀ n, visits n → zoneOfCell n ∈ s.sched.verifySet)) ∧
    ∀ i, (i, o) ∈ s.eligibleOrders x ↔
      i < 64 ∧ (s.slot i).order = some o ∧ o.state = .queued ∧ o.crane = x ∧
        (o.kind = .stow ∨ o.kind = .move → o.dest ≠ none) ∧
        (∀ st, calls st → (s.zone (zoneOfStation st)).state = .inService) ∧
        (o.kind = .fetch → ∃ st b, calls st ∧ b < 2 ∧ (s.bay st b).state = .empty) ∧ s.reachable x o = true) ∧
  (∀ (s : State) x level base,
    (∀ e ∈ s.eligibleOrders x, (e.2.seq - base).toNat < 2147483648) →
    (s.eligibleOrders x ≠ [] → choose (s.candidates x) level ≠ none) ∧
    (∀ i raised, choose (s.candidates x) level = some (i, raised) →
      ∃ o, (i, o) ∈ s.eligibleOrders x ∧ (∀ e ∈ s.eligibleOrders x, o.authority ≤ e.2.authority) ∧
        (raised ≠ [] → o.level = level) ∧
        (∀ j ∈ raised, ∃ q, (j, q) ∈ s.eligibleOrders x ∧ q.authority = o.authority ∧ q.older o = true ∧ q.bypass < 3 ∧
          q.level ≠ level) ∧
        ∀ e ∈ s.eligibleOrders x, e.2.authority = o.authority → e.2.older o = true → e.1 ∈ raised) ∧
    ∀ i h, (i, h) ∈ s.eligibleOrders x → (∀ e ∈ s.eligibleOrders x, h.authority ≤ e.2.authority) → h.level = level →
      (∀ e ∈ s.eligibleOrders x, e.2.authority = h.authority → e.2.level = level → e.1 ≠ i → h.older e.2 = true) →
      (∀ e ∈ s.eligibleOrders x, e.2.authority = h.authority → e.2.older h = true → e.2.bypass < 3) →
      ∃ raised, choose (s.candidates x) level = some (i, raised)) ∧
  (∀ (s : State) x i g o, s.slot i = ⟨g, some o⟩ →
    (∀ st bay, o.kind = .fetch → o.dest = some (.station st) →
      ((s.bay st 0).state = .empty ∧ bay = 0 ∨ (s.bay st 0).state ≠ .empty ∧ (s.bay st 1).state = .empty ∧ bay = 1) →
      s.dispatch x i =
        ((s.setBay st bay { s.bay st bay with state := .inbound ⟨i, g⟩ }).setSlot i
          ⟨g, some { o with destBay := some bay, state := .dispatched, stalled := false,
                            timer := some (s.settings.progressTimeout * 1000) }⟩).setCrane x
            { s.crane x with active := some ⟨i, g⟩, waiting := false }) ∧
    (∀ st bay b, o.kind = .stow ∨ o.kind = .move → o.source = .bay st bay → o.bin = some b →
      s.dispatch x i =
        ((s.setBay st bay { s.bay st bay with state := .outbound b }).setSlot i
          ⟨g, some { o with state := .dispatched, stalled := false,
                            timer := some (s.settings.progressTimeout * 1000) }⟩).setCrane x
            { s.crane x with active := some ⟨i, g⟩, waiting := false }) ∧
    ((o.kind = .verify ∨ o.kind = .move ∧ ∃ n, o.source = .cell n) →
      s.dispatch x i =
        (s.setSlot i
          ⟨g, some { o with state := .dispatched, stalled := false,
                            timer := some (s.settings.progressTimeout * 1000) }⟩).setCrane x
            { s.crane x with active := some ⟨i, g⟩, waiting := false }))

/-- NEXT records the level (R65 step 1) and first evaluates the auto-stow condition of each bay of the crane's station where a
stow is wanted, bay 0 before bay 1 (R65 step 2, R144); what follows reads the state then. With an active order, NEXT is answered
with that order, the repeat indication set (R66); else with the orphan flag clear, the order that selection chooses is
dispatched, those passed over raised by one bypass (R70, R71, R74); each in the order form of R75. An orphan bin is given a
LOADED stow of purpose AUTO to the cell of the toward-home scan, or NONE with the orphan indication where no creation succeeds
(R62, R67). With no eligible order and no credit: NONE with the number of orders QUEUED for the crane, and the waiting flag set
(R73). With nothing eligible and a credit in hand (R72): the cell at the crane's cursor, where conditions 3, 6, 7 and 8 of R68
hold for it, gets a VERIFY order of purpose AUTO and authority 3, dispatched at once; the cursor moves and the credit is spent.
Where the search gives no cell, or the cell fails a condition, or no slot is free, NONE is answered (R73). The byte of the stalled
flag is the model's reading (log 8). -/
def Obligations.NextGivesWorkOrNone : Prop :=
  ∀ s p c level (v d e : State) st, s.serves p → craneOfPort p = some c → level < 12 → st = stationOf c →
    v = s.setCrane c { s.crane c with lastLevel := level } →
    d = (if (v.bay st 0).stowWanted = true then (v.autoStow st 0).1 else v) →
    e = (if (d.bay st 1).stowWanted = true then (d.autoStow st 1).1 else d) →
    (∀ i g o, (e.crane c).active = some ⟨i, g⟩ → e.slot i = ⟨g, some o⟩ →
      exec (.nextWork p level) s =
        .next (acked s p .next
          (([.named 0, .indication true, .handle ⟨i, g⟩, .named o.kind.code, .named o.purpose.code, .named o.state.code] : List Field) ++
            optField (.num 2) o.bin ++ ([.place o.source] : List Field) ++ optField .place o.nextDest ++
            ([.num 1 o.level, .num 1 o.authority, flagField o.stalled] : List Field))
          (e.setCrane c { e.crane c with waiting := false }))) ∧
    ((e.crane c).active = none →
      (∀ i raised g o u, (e.crane c).orphan = false → choose (e.candidates c) level = some (i, raised) →
        u = (raised.foldl (fun t j => t.raiseBypass j) e).dispatch c i → u.slot i = ⟨g, some o⟩ →
        exec (.nextWork p level) s =
          .next (acked s p .next
            (([.named 0, .indication false, .handle ⟨i, g⟩, .named o.kind.code, .named o.purpose.code, .named o.state.code] : List Field) ++
              optField (.num 2) o.bin ++ ([.place o.source] : List Field) ++ optField .place o.nextDest ++
              ([.num 1 o.level, .num 1 o.authority, flagField o.stalled] : List Field)) u)) ∧
      (∀ b i n g, (e.crane c).orphan = true → (e.crane c).carried = some b → (e.bin b).order = none →
        e.sched.wing = .normal → e.freeSlot = some i → e.homeScan c = some n → g = ((e.slot i).gen + 1) % 256 →
        exec (.nextWork p level) s =
          .next (acked s p .next
            [.named 0, .indication false, .handle ⟨i, g⟩, .named 1, .named 2, .named 2, .present, .num 2 b, .place (.crane c),
              .present, .place (.cell n), .num 1 (n % 24 / 2), .num 1 3, flagField false]
            (((((e.setSlot i
              ⟨g, some
                { kind := .stow, purpose := .auto, bin := some b, source := .crane c, dest := some (.cell n), destBay := none
                  crane := c, issuer := .part, authority := 3, seq := e.counter, bypass := 0, loan := none
                  level := n % 24 / 2, state := .loaded, stalled := false
                  timer := some (e.settings.progressTimeout * 1000) }⟩).setCounter (e.counter + 1)).setBin b
                { e.bin b with order := some ⟨i, g⟩ }).setCell n ⟨.reserved ⟨i, g⟩, (e.cell n).stamp, 0⟩).setCrane c
                { e.crane c with active := some ⟨i, g⟩, orphan := false, waiting := false }))) ∧
      (((e.crane c).orphan = true ∧ (e.sched.wing = .held ∨ e.freeSlot = none ∨ e.homeScan c = none) ∨
          (e.crane c).orphan = false ∧ e.eligibleOrders c = [] ∧
            ((e.schedCrane c).credits = 0 ∨ e.cursorSearch c = none ∨ e.freeSlot = none ∨
              ∃ k o, e.cursorSearch c = some k ∧ o.kind = .verify ∧ o.source = .cell (e.shareFirst c + k) ∧
                e.reachable c o = false)) →
        exec (.nextWork p level) s =
          .next (acked s p .next [.named 1, .indication (e.crane c).orphan, .num 1 (e.queuedCount c)]
            (e.setCrane c { e.crane c with waiting := true }))) ∧
      ∀ k n i g o, (e.crane c).orphan = false → e.eligibleOrders c = [] → (e.schedCrane c).credits ≠ 0 →
        e.cursorSearch c = some k → n = e.shareFirst c + k → e.freeSlot = some i → g = ((e.slot i).gen + 1) % 256 →
        o = { kind := .verify, purpose := .auto, bin := none, source := .cell n, dest := none, destBay := none, crane := c,
              issuer := .part, authority := 3, seq := e.counter, bypass := 0, loan := none, level := n % 24 / 2,
              state := .queued, stalled := false, timer := none } →
        e.reachable c o = true →
        exec (.nextWork p level) s =
          .next (acked s p .next
            [.named 0, .indication false, .handle ⟨i, g⟩, .named 3, .named 2, .named 1, .absent, .place (.cell n), .absent,
              .num 1 (n % 24 / 2), .num 1 3, flagField false]
            (((((e.setSlot i
              ⟨g, some { o with state := .dispatched, timer := some (e.settings.progressTimeout * 1000) }⟩).setCounter
                (e.counter + 1)).moveCursor c k).spendCredit c).setCrane c
              { e.crane c with active := some ⟨i, g⟩, waiting := false })))

/-! ## Crane reports (4.6) -/

/-- LOAD, UNABLE and TAG for a handle that is not the crane's active order are refused with ORDER-STATE, and so is DONE
unless the handle is the crane's last completed one, when it is taken with the ended indication set and changes nothing,
whatever cell it names (R77); that its ACK carries the ended indication alone is the model's choice (log 9). A live active order
is the one the crane's active handle names. -/
def Obligations.ReportsNameTheActiveOrder : Prop :=
  ∀ s p c i g, s.serves p → craneOfPort p = some c → i < 64 →
    ((s.crane c).active ≠ some ⟨i, g⟩ ∨ s.orderOf ⟨i, g⟩ = none) →
    exec (.load p i g) s = .next (refused s p .load .orderState none) ∧
      (∀ reason cell, reason < 5 → (∀ n, cell = some n → n < 3840) →
        exec (.unable p i g reason cell) s = .next (refused s p .unable .orderState none)) ∧
      (∀ r, (∀ b, r = .tag b → b < 4096) → exec (.tag p i g r) s = .next (refused s p .tag .orderState none)) ∧
      ∀ cell, (∀ n, cell = some n → n < 3840) →
        exec (.done p i g cell) s =
          .next (if (s.crane c).lastCompleted = some ⟨i, g⟩ then acked s p .done [.indication true] s
            else refused s p .done .orderState none)

/-- LOAD of the crane's DISPATCHED order moves the bin onto the crane from its cell or its bay, and makes the order LOADED
with its progress timer started again and its stalled flag clear (R30, R56, R78); the destination cell stays where its zone
is IN-SERVICE, and else the order is re-destined as a LOADED one (R54, R79); a destination that an earlier re-destination left
absent stays absent. A LOAD of an order already LOADED changes
nothing. LOAD is refused with CELL-STATE where the source cell does not hold the order's bin, or the bin is not STORED
there, and with ORDER-STATE where the source bay is not OUTBOUND with it or the order is a VERIFY (R78). The place of the ended
indication in the ACK, first, is the model's choice (log 9). -/
def Obligations.LoadTakesTheBin : Prop :=
  (∀ s p c i g o, s.serves p → craneOfPort p = some c → i < 64 → (s.crane c).active = some ⟨i, g⟩ → s.slot i = ⟨g, some o⟩ →
    (o.state = .loaded →
      exec (.load p i g) s = .next (acked s p .load ([.indication false, .named 2] ++ optField .place o.dest) s)) ∧
    ∀ b m u, o.state = .dispatched → o.bin = some b →
      ((∃ n, o.source = .cell n ∧ (s.cell n).state = .occupied b ∧ (s.bin b).place = .stored n ∧ m = s.loadFromCell c n b) ∨
        ∃ st bay, o.source = .bay st bay ∧ (s.bay st bay).state = .outbound b ∧ m = s.loadFromBay c st bay b) →
      u = m.setSlot i ⟨g, some { o with state := .loaded, stalled := false,
                                        timer := some (s.settings.progressTimeout * 1000) }⟩ →
      ((o.kind = .fetch ∨ o.dest = none ∨ ∃ n, o.dest = some (.cell n) ∧ (s.zone (zoneOfCell n)).state = .inService) →
        exec (.load p i g) s = .next (acked s p .load ([.indication false, .named 2] ++ optField .place o.dest) u)) ∧
      (∀ n, o.kind = .stow ∨ o.kind = .move → o.dest = some (.cell n) → (s.zone (zoneOfCell n)).state ≠ .inService →
        exec (.load p i g) s =
          .next (acked s p .load
            ([.indication false, .named 2] ++
              optField .place (((u.redestine i).slot i).order.bind (fun q => q.dest))) (u.redestine i)))) ∧
  (∀ s p c i g o, s.serves p → craneOfPort p = some c → i < 64 → (s.crane c).active = some ⟨i, g⟩ → s.slot i = ⟨g, some o⟩ →
    o.state = .dispatched →
    (∀ b n, o.bin = some b → o.source = .cell n → ((s.cell n).state ≠ .occupied b ∨ (s.bin b).place ≠ .stored n) →
      exec (.load p i g) s = .next (refused s p .load .cellState none)) ∧
    (∀ b st bay, o.bin = some b → o.source = .bay st bay → (s.bay st bay).state ≠ .outbound b →
      exec (.load p i g) s = .next (refused s p .load .orderState none)) ∧
    (o.bin = none → exec (.load p i g) s = .next (refused s p .load .orderState none)))

/-- DONE delivers the bin of a LOADED order and completes it (R55). A FETCH goes to its INBOUND bay, whose keep flag is set
for a return, or when no compartment is PENDING-PICK, and ARRIVE is raised to port C (R80); a STOW or MOVE goes to its
destination cell, which the report names and which is RESERVED for it (R81). DONE's refusals: ORDER-STATE for an order that
is not LOADED, for a VERIFY, for a FETCH with a cell, for a STOW or MOVE with no destination or naming another cell or none;
CELL-STATE where the cell named is the destination and not RESERVED for the order (R80, R81). The place of the ended indication in
the ACK, first, is the model's choice (log 9). -/
def Obligations.DoneDeliversTheBin : Prop :=
  (∀ s p c i g o b, s.serves p → craneOfPort p = some c → i < 64 → (s.crane c).active = some ⟨i, g⟩ →
    s.slot i = ⟨g, some o⟩ → o.state = .loaded → o.bin = some b →
    (∀ st bay, o.kind = .fetch → o.dest = some (.station st) → o.destBay = some bay →
      (s.bay st bay).state = .inbound ⟨i, g⟩ →
      exec (.done p i g none) s =
        .next (acked s p .done [.indication false, .final .complete, .num 1 (stationCode st), .num 1 bay]
          (((s.deliverToBay c st bay b (decide (o.purpose = .ret ∨ .pendingPick ∉ (s.bin b).comps))).endOrder i .complete
            none).raise .C (.arrive b st bay o.loan)))) ∧
    (∀ n, o.kind = .stow ∨ o.kind = .move → o.dest = some (.cell n) → n < 3840 → (s.cell n).state = .reserved ⟨i, g⟩ →
      exec (.done p i g (some n)) s =
        .next (acked s p .done [.indication false, .final .complete, .num 2 n]
          ((s.deliverToCell c n b).endOrder i .complete none)))) ∧
  (∀ s p c i g o cell, s.serves p → craneOfPort p = some c → i < 64 → (s.crane c).active = some ⟨i, g⟩ →
    s.slot i = ⟨g, some o⟩ → (∀ n, cell = some n → n < 3840) →
    ((o.state ≠ .loaded ∨ o.kind = .verify ∨ (o.kind = .fetch ∧ cell ≠ none) ∨
        ((o.kind = .stow ∨ o.kind = .move) ∧ ∀ n, o.dest = some (.cell n) → cell ≠ some n)) →
      exec (.done p i g cell) s = .next (refused s p .done .orderState none)) ∧
    (∀ n b, o.state = .loaded → o.kind = .stow ∨ o.kind = .move → o.bin = some b → o.dest = some (.cell n) →
      cell = some n → (s.cell n).state ≠ .reserved ⟨i, g⟩ →
      exec (.done p i g cell) s = .next (refused s p .done .cellState none)))

/-- UNABLE by its reason and the order's state (R82). EMPTY-SOURCE, naming the source cell of a DISPATCHED FETCH or MOVE, makes
it SUSPECT and the order FAILED (R83); OCCUPIED-DEST, naming the destination of a LOADED STOW or MOVE, makes it SUSPECT,
re-destines the order and starts its timer again (R84); MECHANICAL makes the order FAILED, and FIRE, while DISPATCHED,
CANCELLED (R86); BLOCKED with no cell makes it FAILED, and any of OCCUPIED-DEST, BLOCKED and MECHANICAL makes a LOADED order with
no destination FAILED. UNABLE(BLOCKED) naming the source cell or destination of a DISPATCHED order, or the destination of a
LOADED one, makes that cell BLOCKED and the order FAILED (R85); the live order in QUEUED or DISPATCHED of another bin made
MISPLACED so fails (R160), and another live order that the cell was RESERVED for is re-destined (R54). A STOW of purpose AUTO
from a bay that ends before its load leaves the bay's stow-wanted flag set (R87). Every other report is refused with ORDER-STATE:
EMPTY-SOURCE while LOADED, from a bay, for a VERIFY or naming another cell; OCCUPIED-DEST while DISPATCHED, for a FETCH or naming
another cell; BLOCKED naming another cell; FIRE while LOADED. The layout of the ACK is the model's reading (log 9). -/
def Obligations.UnableEndsOrRedestines : Prop :=
  (∀ s p c i g o (wanted : State → State), s.serves p → craneOfPort p = some c → i < 64 →
    (s.crane c).active = some ⟨i, g⟩ → s.slot i = ⟨g, some o⟩ →
    (wanted = fun u =>
      match o.source with
        | .bay st bay =>
          if o.kind = .stow ∧ o.purpose = .auto ∧ o.state = .dispatched then u.setStowWanted st bay true else u
        | _ => u) →
    (∀ n, o.state = .dispatched → o.source = .cell n → n < 3840 → (o.kind = .fetch ∨ o.kind = .move) →
      exec (.unable p i g 0 (some n)) s =
        .next (acked s p .unable [.indication false, .present, .final .failed, .absent]
          ((s.enterSuspect n).endOrder i .failed (some .failed)))) ∧
    (∀ n u, o.state = .loaded → o.kind = .stow ∨ o.kind = .move → o.dest = some (.cell n) → n < 3840 →
      u = (((s.enterSuspect n).redestine i).startTimer i) →
      exec (.unable p i g 1 (some n)) s =
        .next (acked s p .unable
          ([.indication false, .absent] ++ optField .place ((u.slot i).order.bind (fun q => q.dest))) u)) ∧
    (∀ cell reason f x, (∀ n, cell = some n → n < 3840) →
      ((o.state = .dispatched ∨ o.state = .loaded) ∧ (reason = 3 ∨ reason = 2 ∧ cell = none) ∧ f = .failed ∧ x = .failed ∨
        o.state = .dispatched ∧ reason = 4 ∧ f = .cancelled ∧ x = .cancelledFire ∨
        o.state = .loaded ∧ o.dest = none ∧ (reason = 1 ∨ reason = 2) ∧ f = .failed ∧ x = .failed) →
      exec (.unable p i g reason cell) s =
        .next (acked s p .unable [.indication false, .present, .final f, .absent] (wanted (s.endOrder i f (some x))))) ∧
    ∀ n u, n < 3840 →
      (o.state = .dispatched ∧ (o.source = .cell n ∨ o.dest = some (.cell n)) ∨
        o.state = .loaded ∧ o.dest = some (.cell n)) →
      ((∀ b, (s.cell n).state = .occupied b → (s.bin b).order = none ∨ (s.bin b).order = some ⟨i, g⟩) ∧
          (∀ h, (s.cell n).state = .reserved h → h = ⟨i, g⟩) ∧ u = s.enterBlocked n ∨
        (∃ b j g' q, (s.cell n).state = .occupied b ∧ (s.bin b).order = some ⟨j, g'⟩ ∧ j ≠ i ∧ s.slot j = ⟨g', some q⟩ ∧
          q.state ≠ .loaded ∧ u = (s.enterBlocked n).endOrder j .failed (some .failed)) ∨
        ∃ j g' q, (s.cell n).state = .reserved ⟨j, g'⟩ ∧ j ≠ i ∧ s.slot j = ⟨g', some q⟩ ∧
          u = (s.enterBlocked n).redestine j) →
      exec (.unable p i g 2 (some n)) s =
        .next (acked s p .unable [.indication false, .present, .final .failed, .absent]
          (wanted (u.endOrder i .failed (some .failed))))) ∧
  (∀ s p c i g o reason cell, s.serves p → craneOfPort p = some c → i < 64 → (s.crane c).active = some ⟨i, g⟩ →
    s.slot i = ⟨g, some o⟩ → (∀ n, cell = some n → n < 3840) → o.state = .dispatched ∨ o.state = .loaded →
    (reason = 0 ∧ (o.state = .loaded ∨ o.kind = .verify ∨ ∀ n, cell = some n → o.source ≠ .cell n) ∨
      reason = 1 ∧
        (o.state = .dispatched ∨
          o.dest ≠ none ∧ (o.kind = .fetch ∨ o.kind = .verify ∨ ∀ n, cell = some n → o.dest ≠ some (.cell n))) ∨
      reason = 2 ∧
        (∃ n, cell = some n ∧ o.dest ≠ some (.cell n) ∧
          (o.state = .dispatched ∧ o.source ≠ .cell n ∨ o.state = .loaded ∧ o.dest ≠ none)) ∨
      reason = 4 ∧ o.state = .loaded) →
    exec (.unable p i g reason cell) s = .next (refused s p .unable .orderState none))

/-! ## The rail (chapter 6) -/

/-- RSV is refused at the first check of R115 that fails, with its reason and detail: RANGE for lo above hi, CONFLICT with
the lowest segment held by the other crane, ZONE-CLOSED with the lowest new segment whose seal is not OPEN, RANGE where the
union is not one run, CONFLICT against the other crane's order, BARRIER with the lowest shutter not OPEN that the union
spans. An RSV that passes the checks of R115 is granted whole (R116): every free segment from lo to hi takes the crane as
holder, every seal stays, the crane's permit is evaluated again, and the ACK carries the holding after the grant; nothing
else changes. -/
def Obligations.RsvGrantsOrIsRefused : Prop :=
  (∀ s p c lo hi, s.serves p → craneOfPort p = some c → lo < 42 → hi < 42 →
    (hi < lo → exec (.rsv p lo hi) s = .next (refused s p .rsv .range none)) ∧
    (lo ≤ hi →
      (∀ d, lowestIn lo hi (fun n => (s.seg n).holder = some (otherCrane c)) d →
        exec (.rsv p lo hi) s = .next (refused s p .rsv .conflict (some d))) ∧
      ((∀ n, lo ≤ n → n ≤ hi → (s.seg n).holder ≠ some (otherCrane c)) →
        (∀ d, lowestIn lo hi (fun n => (s.seg n).holder ≠ some c ∧ (s.seg n).sealState ≠ .open) d →
          exec (.rsv p lo hi) s = .next (refused s p .rsv .zoneClosed (some d))) ∧
        ((∀ n, lo ≤ n → n ≤ hi → (s.seg n).holder ≠ some c → (s.seg n).sealState = .open) →
          (∀ a b, s.holdingEnds c = some (a, b) → (b + 1 < lo ∨ hi + 1 < a) →
            exec (.rsv p lo hi) s = .next (refused s p .rsv .range none)) ∧
          ∀ first last,
            (s.holdingEnds c = none ∧ first = lo ∧ last = hi ∨
              ∃ a b, s.holdingEnds c = some (a, b) ∧ lo ≤ b + 1 ∧ a ≤ hi + 1 ∧ first = min a lo ∧ last = max b hi) →
            (∀ a b, s.holdingEnds (otherCrane c) = some (a, b) →
              (c = .A → a ≤ last → exec (.rsv p lo hi) s = .next (refused s p .rsv .conflict (some a))) ∧
              (c = .B → first ≤ b → exec (.rsv p lo hi) s = .next (refused s p .rsv .conflict (some b)))) ∧
            ((∀ a b, s.holdingEnds (otherCrane c) = some (a, b) → (c = .A → last < a) ∧ (c = .B → b < first)) →
              ∀ k, lowestIn 0 2 (fun k => (s.shutter k).state ≠ .open ∧ first ≤ 10 * k + 10 ∧ 10 * k + 11 ≤ last) k →
                exec (.rsv p lo hi) s = .next (refused s p .rsv .barrier (some k))))))) ∧
  (∀ s p c lo hi first last, s.serves p → craneOfPort p = some c → lo ≤ hi → hi < 42 →
    (∀ n, lo ≤ n → n ≤ hi →
      (s.seg n).holder = some c ∨ (s.seg n).holder = none ∧ (s.seg n).sealState = .open) →
    (s.holdingEnds c = none ∧ first = lo ∧ last = hi ∨
      ∃ a b, s.holdingEnds c = some (a, b) ∧ lo ≤ b + 1 ∧ a ≤ hi + 1 ∧ first = min a lo ∧ last = max b hi) →
    (∀ a b, s.holdingEnds (otherCrane c) = some (a, b) → (c = .A → last < a) ∧ (c = .B → b < first)) →
    (∀ k, k < 3 → (s.shutter k).state ≠ .open → ¬(first ≤ 10 * k + 10 ∧ 10 * k + 11 ≤ last)) →
    ∃ u v, exec (.rsv p lo hi) s = .next (acked s p .rsv (heldFields (u.holdingEnds c)) u) ∧
      u = ({ s with segs := u.segs }).setCrane c { s.crane c with permit := v } ∧ v = u.permitHolds c ∧
      (∀ n, u.seg n =
        if lo ≤ n ∧ n ≤ hi ∧ (s.seg n).holder = none then { s.seg n with holder := some c } else s.seg n) ∧
      (RailSound s → u.holdingEnds c = some (first, last)))

/-- REL on a crane's port, and FREL on port S for a crane whose permit is off, release a run at either end of the holding
that the last envelope does not touch (R118, R119, R122): each segment is free, SEAL-PENDING becomes SEALED, the permit is
evaluated again, and the ACK carries the holding left. REL and FREL are refused at the first check of R118 and of R122 that
fails, with its reason and detail. The one presence byte of the holding in the ACK is the model's choice (log 9). -/
def Obligations.RelAndFrelReleaseOrAreRefused : Prop :=
  (∀ s c lo hi a b, s.holdingEnds c = some (a, b) → lo ≤ hi → hi < 42 → (lo = a ∨ hi = b) →
    (∀ n, lo ≤ n → n ≤ hi →
      (s.seg n).holder = some c ∧ ¬((s.crane c).touchFirst ≤ n ∧ n ≤ (s.crane c).touchLast)) →
    ∃ u v, u = ({ s with segs := u.segs }).setCrane c { s.crane c with permit := v } ∧ v = u.permitHolds c ∧
      (∀ n, u.seg n =
        if lo ≤ n ∧ n ≤ hi then
          ⟨none, if (s.seg n).sealState = .sealPending then .sealed else (s.seg n).sealState⟩
        else s.seg n) ∧
      (∀ p, s.serves p → craneOfPort p = some c →
        ((s.crane c).ref = none → lo ≤ endSegment c → endSegment c ≤ hi → lo = a ∧ hi = b) →
        exec (.rel p lo hi) s = .next (acked s p .rel (holdingFields (u.holdingEnds c)) u)) ∧
      (s.serves .S → (s.crane c).permit = false →
        exec (.frel .S (craneCode c) lo hi) s = .next (acked s .S .frel (holdingFields (u.holdingEnds c)) u))) ∧
  (∀ s p c lo hi, s.serves p → lo < 42 → hi < 42 →
    (∀ k i, (craneOfPort p = some c ∧ k = .rel ∧ i = .rel p lo hi ∨
        p = .S ∧ k = .frel ∧ i = .frel .S (craneCode c) lo hi ∧ (s.crane c).permit = false) →
      (hi < lo → exec i s = .next (refused s p k .range none)) ∧
      (lo ≤ hi →
        (∀ d, lowestIn lo hi (fun n => (s.seg n).holder ≠ some c) d →
          exec i s = .next (refused s p k .notOwner (some d))) ∧
        ((∀ n, lo ≤ n → n ≤ hi → (s.seg n).holder = some c) → ∀ a b, s.holdingEnds c = some (a, b) →
          (lo ≠ a → hi ≠ b → exec i s = .next (refused s p k .range none)) ∧
          ((lo = a ∨ hi = b) →
            (∀ d, lowestIn lo hi (fun n => (s.crane c).touchFirst ≤ n ∧ n ≤ (s.crane c).touchLast) d →
              exec i s = .next (refused s p k .conflict (some d))) ∧
            ((∀ n, lo ≤ n → n ≤ hi → ¬((s.crane c).touchFirst ≤ n ∧ n ≤ (s.crane c).touchLast)) →
              k = .rel → (s.crane c).ref = none → lo ≤ endSegment c → endSegment c ≤ hi → (lo ≠ a ∨ hi ≠ b) →
              exec i s = .next (refused s p k .range (some (endSegment c)))))))) ∧
    (p = .S → (s.crane c).permit = true →
      exec (.frel .S (craneCode c) lo hi) s =
        .next (refused s .S .frel (if hi < lo then .range else .notIdle) none)))

/-! ## Trips and supervision (5.4 to 5.8) -/

/-- A trip is latched as R102 gives: a cause already in a latched set changes nothing; else the latch is set, the first
cause is kept or becomes this one, the set gains it, every cause but FIRE clears creep permission (R103), the permit is
evaluated again (R104), and TRIP is raised to the crane's own port and port S with the record as it then stands. -/
def Obligations.ATripIsLatched : Prop :=
  ∀ (s : State) c cause, TripSound (s.crane c) →
    (cause ∈ (s.crane c).tripCauses → s.latchTrip c cause = s) ∧
    (cause ∉ (s.crane c).tripCauses →
      ∃ r, s.latchTrip c cause =
          (((s.setCrane c r).raise (portOf c) (.trip c r.tripFirst r.tripCauses r.ref.isSome)).raise .S
            (.trip c r.tripFirst r.tripCauses r.ref.isSome)) ∧
        r = { s.crane c with
          tripLatched := true
          tripFirst := if (s.crane c).tripLatched = true then (s.crane c).tripFirst else some cause
          tripCauses := r.tripCauses
          creep := if cause = .fire then (s.crane c).creep else false
          permit := r.permit } ∧
        (∀ x, x ∈ r.tripCauses ↔ x = cause ∨ x ∈ (s.crane c).tripCauses) ∧ TripSound r ∧
        r.permit =
          (decide (r.tripCauses = [.fire]) && r.creep && r.keepaliveRunning && (r.ref.isSome || s.holds c (endSegment c))))

/-- STOP latches a SERVICE trip for the named crane (R108); CREEP sets and CREND clears its creep permission, and its permit
is evaluated again (R109). Each ACK carries the first cause and the cause set after the request. A crane field out of bounds
is refused with RANGE. The byte of the creep permission is the model's reading (log 8), and the presence byte of the first cause,
in STOP's ACK too, is its choice (log 9). -/
def Obligations.StopCreepAndCrendReachTheNamedCrane : Prop :=
  ∀ s, s.serves .S →
    (∀ c u, u = s.latchTrip c .service →
      exec (.stop .S (craneCode c)) s =
        .next (acked s .S .stop
          (optField (fun t => .named t.code) (u.crane c).tripFirst ++ [causeMask (u.crane c).tripCauses]) u)) ∧
    (∀ c k v i, (k = .creep ∧ v = true ∧ i = .creep .S (craneCode c) ∨ k = .crend ∧ v = false ∧ i = .crend .S (craneCode c)) →
      exec i s =
        .next (acked s .S k
          ([.named (if v then 0 else 1)] ++ optField (fun t => .named t.code) (s.crane c).tripFirst ++
            [causeMask (s.crane c).tripCauses])
          (s.setCrane c
            { s.crane c with
              creep := v
              permit :=
                (!(s.crane c).tripLatched || decide ((s.crane c).tripCauses = [.fire]) && v) &&
                  (s.crane c).keepaliveRunning && ((s.crane c).ref.isSome || s.holds c (endSegment c)) }))) ∧
    ∀ n, 2 ≤ n →
      exec (.stop .S n) s = .next (refused s .S .stop .range none) ∧
        exec (.creep .S n) s = .next (refused s .S .creep .range none) ∧
        exec (.crend .S n) s = .next (refused s .S .crend .range none)

/-- KEEP sets the keepalive of the port's crane, its code the window of the table: code 0 stops it and the drive permit
falls off, codes 1 to 4 start the timer with the window in any state, and the trip record stands (R105). Another code is
refused with RANGE, and ports C and S with ROLE or AUTHORITY. -/
def Obligations.KeepSetsTheKeepalive : Prop :=
  ∀ s p code, s.serves p →
    (∀ c w k, craneOfPort p = some c →
      (code, w, k) ∈
        [(0, Window.stopped, KeepaliveState.stopped), (1, .ms250, .running 250), (2, .ms500, .running 500),
          (3, .ms1000, .running 1000), (4, .ms2000, .running 2000)] →
      exec (.keep p code) s =
        .next (acked s p .keep [.named code, .named (if code = 0 then 0 else 1)]
          (s.setCrane c
            { s.crane c with
              window := w
              keepalive := k
              permit :=
                decide (code ≠ 0) && (s.crane c).tripAllows && ((s.crane c).ref.isSome || s.holds c (endSegment c)) }))) ∧
    (∀ c, craneOfPort p = some c → 5 ≤ code → exec (.keep p code) s = .next (refused s p .keep .range none)) ∧
    (craneOfPort p = none →
      ∃ r, (r = .role ∨ r = .authority) ∧ exec (.keep p code) s = .next (refused s p .keep r none))

/-- A timer that runs out acts once. A keepalive in RUNNING becomes EXPIRED, the permit falls off, and LINK is latched
(R106). A live order's progress timer stops, the order is stalled, and STALL goes to port S (R58). The expiry of a timer that does
not run cannot occur, and changes nothing (DEDUCED: log 2). -/
def Obligations.TimersRunOut : Prop :=
  ∀ s, s.running = true →
    (∀ c, (∃ ms, (s.crane c).keepalive = .running ms) →
      exec (.keepaliveExpiry c) s =
        .next (finish s
          ((s.setCrane c { s.crane c with keepalive := .expired, permit := false }).latchTrip c .link))) ∧
    (∀ c, (∀ ms, (s.crane c).keepalive ≠ .running ms) → exec (.keepaliveExpiry c) s = .next s) ∧
    (∀ (i : Fin 64) g o, s.slot i = ⟨g, some o⟩ → o.timer ≠ none →
      exec (.progressTimerExpiry i) s =
        .next (finish s
          ((s.setSlot i ⟨g, some { o with timer := none, stalled := true }⟩).raise .S
            (.stall ⟨i, g⟩ o.kind o.state o.crane o.bin)))) ∧
    ∀ (i : Fin 64), (∀ o, (s.slot i).order = some o → o.timer = none) → exec (.progressTimerExpiry i) s = .next s

/-- CLRT of a clear latch changes nothing. Of a set latch it tests the conditions of R110 in order and names the first that
fails; where all hold it clears the record and evaluates the permit again, keeping creep permission and the reference. The byte
of the drive permit in the ACK is the model's reading (log 8). -/
def Obligations.ClrtClearsTheTrip : Prop :=
  ∀ s p c, s.serves p → craneOfPort p = some c →
    ((s.crane c).tripLatched = false →
      exec (.clrt p) s = .next (acked s p .clrt [.named (if (s.crane c).permit then 0 else 1)] s)) ∧
    ((s.crane c).tripLatched = true →
      ∀ held zonesOk barred : Prop,
        (held ↔ ∀ n, (s.crane c).touchFirst ≤ n → n ≤ (s.crane c).touchLast → (s.seg n).holder = some c) →
        (zonesOk ↔ ∀ n, (s.crane c).touchFirst ≤ n → n ≤ (s.crane c).touchLast →
          (s.zone (zoneOfSegment n)).state ≠ .sealing ∧ (s.zone (zoneOfSegment n)).state ≠ .obstructed ∧
            (.fire ∈ (s.crane c).tripCauses → (s.zone (zoneOfSegment n)).state ≠ .clearing)) →
        (barred ↔ ∃ k, k < 3 ∧ ShutterBars (s.shutter k).state ∧ (s.crane c).touchFirst ≤ 10 * k + 10 ∧
          10 * k + 11 ≤ (s.crane c).touchLast) →
        ((s.crane c).dN8 ≠ 0 → exec (.clrt p) s = .next (refused s p .clrt .condition (some 1))) ∧
        ((s.crane c).dN8 = 0 → ¬held → exec (.clrt p) s = .next (refused s p .clrt .condition (some 2))) ∧
        ((s.crane c).dN8 = 0 → held → (s.crane c).keepaliveRunning = false →
          exec (.clrt p) s = .next (refused s p .clrt .condition (some 3))) ∧
        ((s.crane c).dN8 = 0 → held → (s.crane c).keepaliveRunning = true → ¬zonesOk →
          exec (.clrt p) s = .next (refused s p .clrt .condition (some 4))) ∧
        ((s.crane c).dN8 = 0 → held → (s.crane c).keepaliveRunning = true → zonesOk → barred →
          exec (.clrt p) s = .next (refused s p .clrt .condition (some 7))) ∧
        ((s.crane c).dN8 = 0 → held → (s.crane c).keepaliveRunning = true → zonesOk → ¬barred →
          ∀ v, v = ((s.crane c).ref.isSome || s.holds c (endSegment c)) →
            exec (.clrt p) s =
              .next (acked s p .clrt [.named (if v then 0 else 1)]
                (s.setCrane c
                  { s.crane c with tripLatched := false, tripFirst := none, tripCauses := [], permit := v }))))

/-- Every step keeps each crane's last envelope within its holding while its latch is clear or holds FIRE alone: so a drive
permit is on only where every segment touched by the crane's last envelope is held by it (R104). -/
def Obligations.StepKeepsEnvelopesHeld : Prop :=
  (∀ s t, RailSound s → (∀ c, TripSound (s.crane c)) → EnvelopeHeld s → step s = .next t → EnvelopeHeld t) ∧
    ∀ s c n, EnvelopeHeld s → PermitSound s → (s.crane c).permit = true → (s.crane c).touchFirst ≤ n →
      n ≤ (s.crane c).touchLast → (s.seg n).holder = some c

/-! ## Encoder inputs and the position sample (5.2, 5.3) -/

/-- A raw input that takes the level opposite to the filtered one begins an excursion under the present window; one that
returns discards it; and only that filter changes (R91). A filter window that ends gives the filtered level its new value.
One phase alone is one step along the forward cycle where the two phases were equal before phase 1 changed, or unequal
before phase 2 changed, and one step against it else; the counter wraps at 24 bits (R91, R92). Both phases at once latch
ENCODER and make the crane UNREFERENCED (R92, R103); the counter stands. That both windows end in one command is the model's
choice (log 18); the end of a window with no excursion in progress cannot occur, and changes nothing (log 2). A
rising edge of the filtered home input captures the reference: N_home is the counter, x the home setting, the index phase
absent, the permit evaluated again; nothing else moves (R93). A rising index edge stores the counter as phase on a
REFERENCED crane that has none; with a phase stored, a deviation modulo CPR above 4 latches SLIP and makes the crane
UNREFERENCED; on an UNREFERENCED crane it does nothing (R94). A falling edge does nothing. -/
def Obligations.EncoderInputsAreFiltered : Prop :=
  (∀ s c i level, s.running = true →
    ∃ f g, f = (s.crane c).filters ∧
      exec (.inputExcursion c i level) s = .next (s.setCrane c { s.crane c with filters := g }) ∧
      (∀ j, j ≠ i → g.get j = f.get j) ∧ (g.get i).raw = level ∧ (g.get i).filtered = (f.get i).filtered ∧
      (level = (f.get i).filtered → (g.get i).excursion = none) ∧
      (level ≠ (f.get i).filtered →
        (g.get i).excursion = some ((f.get i).excursion.getD (s.craneSettings c).filterWindow))) ∧
  (∀ (s : State) c r p1 p2, s.running = true → r = s.crane c → p1 = r.filters.phase1 → p2 = r.filters.phase2 →
    (p1.excursion ≠ none →
      exec (.filterWindow c .phase1) s =
        .next (finish s
          (s.setCrane c
            { r with
              filters := { r.filters with phase1 := { p1 with filtered := !p1.filtered, excursion := none } }
              counter := if p1.filtered = p2.filtered then r.counter + 1 else r.counter - 1 }))) ∧
    (p2.excursion ≠ none →
      exec (.filterWindow c .phase2) s =
        .next (finish s
          (s.setCrane c
            { r with
              filters := { r.filters with phase2 := { p2 with filtered := !p2.filtered, excursion := none } }
              counter := if p1.filtered = p2.filtered then r.counter - 1 else r.counter + 1 }))) ∧
    (p1.excursion ≠ none → p2.excursion ≠ none →
      exec (.filterWindow c .bothPhases) s =
        .next (finish s
          ((s.setCrane c
            { r with
              filters :=
                { r.filters with
                  phase1 := { p1 with filtered := !p1.filtered, excursion := none }
                  phase2 := { p2 with filtered := !p2.filtered, excursion := none } }
              ref := none
              permit := r.tripAllows && r.keepaliveRunning && s.holds c (endSegment c) }).latchTrip c .encoder))) ∧
    (p1.excursion = none → exec (.filterWindow c .phase1) s = .next (finish s s)) ∧
    (p2.excursion = none → exec (.filterWindow c .phase2) s = .next (finish s s))) ∧
  (∀ (s t : State) c r i g w, s.running = true → r = s.crane c → i = .home ∧ w = .home ∨ i = .index ∧ w = .index →
    g = r.filters.get i → g.excursion ≠ none →
    t = s.setCrane c { r with filters := r.filters.put i { g with filtered := !g.filtered, excursion := none } } →
    (g.filtered = true → exec (.filterWindow c w) s = .next (finish s t)) ∧
    (g.filtered = false →
      (i = .home →
        ∃ u, exec (.filterWindow c w) s = .next (finish s u) ∧
          u = t.setCrane c
            { t.crane c with
              ref := some ⟨r.counter, none, (s.craneSettings c).home⟩
              permit := r.tripAllows && r.keepaliveRunning }) ∧
      (i = .index →
        (r.ref = none → exec (.filterWindow c w) s = .next (finish s t)) ∧
        (∀ q, r.ref = some q → q.phase = none →
          exec (.filterWindow c w) s =
            .next (finish s (t.setCrane c { t.crane c with ref := some { q with phase := some r.counter } }))) ∧
        ∀ q a cpr, ∀ d : Int, r.ref = some q → q.phase = some a → cpr = (s.craneSettings c).cpr → 0 < cpr →
          d = (r.counter - a).toInt % (cpr : Int) →
          (d ≤ 4 ∨ ((cpr / 2 : Nat) : Int) < d ∧ (cpr : Int) - 4 ≤ d →
            exec (.filterWindow c w) s = .next (finish s t)) ∧
          (4 < d ∧ (d ≤ ((cpr / 2 : Nat) : Int) ∨ d < (cpr : Int) - 4) →
            exec (.filterWindow c w) s =
              .next (finish s
                ((t.setCrane c
                  { t.crane c with
                    ref := none
                    permit := r.tripAllows && r.keepaliveRunning && s.holds c (endSegment c) }).latchTrip c .slip))))))

/-- A position sample computes, in order, the position (R95), the change over eight samples, speed and direction (R96), the
limit (R97), the margin (R98), the envelope of a referenced or unreferenced crane (R99, R100) and the touched segments,
latches every trip found (R101, R102), evaluates the permit, and hands the envelope on, to shutters 0, 1 and 2 in turn and to the
zone below a shutter before the zone above it (the model's order, log 13). Where the latch was clear the first cause is the first
found, and a gained cause raises TRIP to the crane's port and port S; every other field of the record, and the other crane's
record, stands. The sample's new envelope handed to a shutter (R101 step 5, R171, R176): a shutter in HOLD enters CLOSING where
neither envelope spans it and, while a zone at it is CLEARING, neither crane straddles it; where a still crane's own new envelope
spans it, a SEALING zone at it becomes OBSTRUCTED; any other shutter stands. -/
def Obligations.PositionSampleComputesTheEnvelope : Prop :=
  (∀ s c r q x d v m lost, s.running = true → r = s.crane c → q = s.craneSettings c → TripSound r →
    x = (q.home : Int) +
      (if 0 ≤ (r.counter - (r.ref.elim 0 Reference.nHome)).toInt then 1 else -1) *
        (((2 * ((r.counter - (r.ref.elim 0 Reference.nHome)).toInt * q.gain).natAbs + 65536) / 131072 : Nat) : Int) →
    lost = decide (r.ref ≠ none ∧ (x < -2000 ∨ 102799 < x)) →
    d = (r.counter - r.history.headD 0).toInt →
    v = min (d.natAbs * q.gain * 125 / 131072) 8000 →
    m = min ((v * v + 2 * q.aBrake - 1) / (2 * q.aBrake) + (v * q.tReact + 999) / 1000 + q.mFixed) 20000 →
    ∃ t u, exec (.positionSample c) s = .next (finish s (t.handOff c)) ∧ u = t.crane c ∧
      SameBlocks (t.setCrane c r) s ∧ SameReceivers t s ∧
      u.ref = (if lost then none else r.ref.map (fun a => { a with x := x })) ∧
      u.counter = r.counter ∧ u.dN8 = d ∧ u.history = r.history.drop 1 ++ [r.counter] ∧ u.speed = v ∧
      u.direction = (if 0 < d then .east else if d < 0 then .west else .none) ∧ u.margin = m ∧
      (u.ref ≠ none →
        (u.envLo : Int) = max 0 (min 100799 (x - 1100 - if d < 0 then (m : Int) else q.mFixed)) ∧
          (u.envHi : Int) = max 0 (min 100799 (x + 1100 + if 0 < d then (m : Int) else q.mFixed))) ∧
      (u.ref = none →
        (c = .A → u.envLo = 0 ∧ u.envHi = (s.holdingEnds .A).elim 2399 (fun e => 2400 * (e.2 + 1) - 1)) ∧
          (c = .B → u.envLo = (s.holdingEnds .B).elim 98400 (fun e => 2400 * e.1) ∧ u.envHi = 100799)) ∧
      u.touchFirst = u.envLo / 2400 ∧ u.touchLast = u.envHi / 2400 ∧
      (∃ fast outside barred : Prop,
        (fast ↔ (if u.ref ≠ none ∧ r.creep = false then q.vMax * 11 / 10 else q.creepMax) < v) ∧
        (outside ↔ ∃ n, u.touchFirst ≤ n ∧ n ≤ u.touchLast ∧ (s.seg n).holder ≠ some c) ∧
        (barred ↔ ∃ k, k < 3 ∧ ShutterBars (s.shutter k).state ∧ u.touchFirst ≤ 10 * k + 10 ∧ 10 * k + 11 ≤ u.touchLast) ∧
        (∀ y, y ∈ u.tripCauses ↔
          y ∈ r.tripCauses ∨ y = .positionRange ∧ lost = true ∨ y = .overspeed ∧ fast ∨ y = .envelope ∧ outside ∨
            y = .barrier ∧ barred) ∧
        (r.tripLatched = false →
          (lost = true → u.tripFirst = some .positionRange) ∧ (lost = false → fast → u.tripFirst = some .overspeed) ∧
          (lost = false → ¬fast → outside → u.tripFirst = some .envelope) ∧
          (lost = false → ¬fast → ¬outside → barred → u.tripFirst = some .barrier))) ∧
      TripSound u ∧ (u.tripLatched = true ↔ u.tripCauses ≠ []) ∧
      (r.tripLatched = true → u.tripFirst = r.tripFirst) ∧ u.permit = t.permitHolds c ∧
      (∀ y, t.port y =
        if (y = portOf c ∨ y = .S) ∧ u.tripCauses ≠ r.tripCauses then
          (s.port y).offer (.trip c u.tripFirst u.tripCauses u.ref.isSome)
        else s.port y) ∧
      u = { r with
        ref := u.ref, history := u.history, dN8 := u.dN8, speed := u.speed, direction := u.direction, margin := u.margin
        envLo := u.envLo, envHi := u.envHi, touchFirst := u.touchFirst, touchLast := u.touchLast
        tripLatched := u.tripLatched, tripFirst := u.tripFirst, tripCauses := u.tripCauses, creep := u.creep
        permit := u.permit } ∧
      u.creep = (r.creep && decide (u.tripCauses = r.tripCauses))) ∧
  (∀ (s : State) c k, k < 3 →
    ((s.shutter k).state ≠ .hold → s.handShutter c k = s) ∧
    ((s.shutter k).state = .hold →
      ∀ clear : Prop,
        (clear ↔
          (∀ x, ¬((s.crane x).touchFirst ≤ 10 * k + 10 ∧ 10 * k + 11 ≤ (s.crane x).touchLast)) ∧
            (((s.zone k).state = .clearing ∨ (s.zone (k + 1)).state = .clearing) →
              ∀ x, ¬((s.seg (10 * k + 10)).holder = some x ∧ (s.seg (10 * k + 11)).holder = some x))) →
        (clear → s.handShutter c k = s.enterClosing k .clear) ∧
        (¬clear →
          ((s.crane c).touchFirst ≤ 10 * k + 10 ∧ 10 * k + 11 ≤ (s.crane c).touchLast ∧ (s.crane c).dN8 = 0 →
            ∀ t, t = (if (s.zone k).state = .sealing then s.zoneTo k .obstructed else s) →
              s.handShutter c k = if (s.zone (k + 1)).state = .sealing then t.zoneTo (k + 1) .obstructed else t) ∧
          (¬((s.crane c).touchFirst ≤ 10 * k + 10 ∧ 10 * k + 11 ≤ (s.crane c).touchLast ∧ (s.crane c).dN8 = 0) →
            s.handShutter c k = s))) ∧
    ∀ u : State, u.handOff c = ((u.handShutter c 0).handShutter c 1).handShutter c 2)

/-! ## Lending and returns (chapter 7) -/

/-- FETCH is refused at the first failing check of R128 and R130: RANGE for a list that names a
compartment twice, with the first entry that repeats one (log 15), BIN-STATE for a bin not lendable, BIN-STATE with the first listed compartment that is not OCCUPIED, BIN-BUSY,
ZONE-CLOSED with the cell's zone before the station's, WING-HELD, TABLE-FULL. A FETCH that passes R128 and R130 creates a
FETCH order of purpose LOAN for the crane of the station, with effective authority 3 and the loan reference, in the lowest
free slot; the listed compartments become PENDING-PICK and the bin's live order handle is set; nothing else changes; the ACK
carries the handle and the crane (R131). A FETCH for a bin at a bay of the named station is taken there and creates no order
(R129): the listed compartments become PENDING-PICK, an empty list sets the keep flag, and a QUEUED STOW of purpose AUTO of
the bin is first CANCELLED without a notice (R55); any other live order refuses it with BIN-BUSY. Neither the wing nor a
zone is checked. That ACK's layout, an absent handle first, is the model's choice (log 9). -/
def Obligations.FetchLendsOrIsRefused : Prop :=
  (∀ s b st picks loan a, s.serves .C → b < 4096 → a < 4 → picks.length ≤ 16 → (∀ i ∈ picks, i < 16) →
    ∀ refusedWith : Reason → Option Nat → Prop,
      (refusedWith = fun r d => exec (.fetch .C b (stationCode st) picks loan a) s = .next (refused s .C .fetch r d)) →
      (∀ before i after, picks = before ++ i :: after → before.Nodup → i ∈ before → refusedWith .range (some i)) ∧
      (picks.Nodup →
        ((s.bin b).place = .unregistered ∨ (s.bin b).place = .misplaced ∨ (s.bin b).quarantine = true →
          refusedWith .binState none) ∧
        ((s.bin b).place ≠ .unregistered → (s.bin b).place ≠ .misplaced → (s.bin b).quarantine = false →
          (∀ before i after, picks = before ++ i :: after → (∀ j ∈ before, (s.bin b).comp j = .occupied) →
            (s.bin b).comp i ≠ .occupied → refusedWith .binState (some i)) ∧
          ((∀ i ∈ picks, (s.bin b).comp i = .occupied) →
            ((∃ c, (s.bin b).place = .onCrane c) ∨ (∃ st' bay, st' ≠ st ∧ (s.bin b).place = .atBay st' bay) ∨
                (∃ n, (s.bin b).place = .stored n ∧ (s.bin b).order ≠ none) →
              refusedWith .binBusy none) ∧
            ∀ n, (s.bin b).place = .stored n → (s.bin b).order = none →
              ((s.zone (zoneOfCell n)).state ≠ .inService → (s.zone (zoneOfCell n)).state ≠ .degraded →
                refusedWith .zoneClosed (some (zoneOfCell n))) ∧
              ((s.zone (zoneOfCell n)).state = .inService ∨ (s.zone (zoneOfCell n)).state = .degraded →
                ((s.zone (zoneOfStation st)).state ≠ .inService → (s.zone (zoneOfStation st)).state ≠ .degraded →
                  refusedWith .zoneClosed (some (zoneOfStation st))) ∧
                ((s.zone (zoneOfStation st)).state = .inService ∨ (s.zone (zoneOfStation st)).state = .degraded →
                  (s.sched.wing = .held → refusedWith .wingHeld none) ∧
                  (s.sched.wing = .normal → s.freeSlot = none → refusedWith .tableFull none))))))) ∧
  (∀ s b n st picks loan a i g, s.serves .C → b < 4096 → a < 4 → picks.Nodup → (∀ j ∈ picks, j < 16) →
    (s.bin b).place = .stored n → (s.bin b).quarantine = false → (s.bin b).order = none →
    (∀ j ∈ picks, (s.bin b).comp j = .occupied) →
    (∀ z, z = zoneOfCell n ∨ z = zoneOfStation st → (s.zone z).state = .inService ∨ (s.zone z).state = .degraded) →
    s.sched.wing = .normal → s.freeSlot = some i → g = ((s.slot i).gen + 1) % 256 →
    ∃ comps, (∀ j : Nat, comps[j]? = ((s.bin b).comps[j]?).map (fun c => if j ∈ picks then .pendingPick else c)) ∧
      exec (.fetch .C b (stationCode st) picks loan a) s =
        .next (acked s .C .fetch [.present, .handle ⟨i, g⟩, .num 1 (craneCode (craneOf st))]
          (((s.setSlot i
            ⟨g, some
              { kind := .fetch, purpose := .loan, bin := some b, source := .cell n, dest := some (.station st), destBay := none
                crane := craneOf st, issuer := .C, authority := 3, seq := s.counter, bypass := 0, loan := some loan
                level := n % 24 / 2, state := .queued, stalled := false, timer := none }⟩).setCounter (s.counter + 1)).setBin b
            { s.bin b with comps := comps, order := some ⟨i, g⟩ }))) ∧
  (∀ s b st bay picks loan a, s.serves .C → b < 4096 → a < 4 → picks.Nodup → (∀ j ∈ picks, j < 16) →
    (s.bin b).place = .atBay st bay → (s.bin b).quarantine = false → (∀ j ∈ picks, (s.bin b).comp j = .occupied) →
    (∀ t h, ((s.bin b).order = none ∧ h = none ∧ t = s ∨
        ∃ i g o, (s.bin b).order = some ⟨i, g⟩ ∧ s.slot i = ⟨g, some o⟩ ∧ o.state = .queued ∧ o.kind = .stow ∧
          o.purpose = .auto ∧ h = some ⟨i, g⟩ ∧ t = s.endOrder i .cancelled none) →
      ∃ comps u, (∀ j : Nat, comps[j]? = ((t.bin b).comps[j]?).map (fun c => if j ∈ picks then .pendingPick else c)) ∧
        u = t.setBin b { t.bin b with comps := comps } ∧
        exec (.fetch .C b (stationCode st) picks loan a) s =
          .next (acked s .C .fetch ([.absent, .num 1 (stationCode st), .num 1 bay] ++ optField .handle h)
            (if picks = [] then u.setBay st bay { u.bay st bay with keep := true } else u))) ∧
    (∀ i g o, (s.bin b).order = some ⟨i, g⟩ → s.slot i = ⟨g, some o⟩ →
      (o.state ≠ .queued ∨ o.kind ≠ .stow ∨ o.purpose ≠ .auto) →
      exec (.fetch .C b (stationCode st) picks loan a) s = .next (refused s .C .fetch .binBusy none)))

/-- PICK, UNPICK, PLACE and UNCLAIM (R133 to R137): each takes a compartment from its state to its target, PICK, PLACE and
UNCLAIM of a bin AT-BAY alone; a PLACE that leaves no FREE compartment clears the bay's keep flag; the auto-stow condition
is then evaluated for the bay. Another bin state is refused with BIN-STATE, another compartment state with BIN-STATE and the
compartment. The bytes of flags are the model's reading (log 8), and the presence byte of each bay field its choice (log 9). -/
def Obligations.DeskRequestsChangeOneCompartment : Prop :=
  ∀ s b j, s.serves .C → b < 4096 → j < 16 →
    ∀ k i atBay source target,
      (k, i, atBay, source, target) ∈
        [(Kind.pick, Instr.pick .C b j, true, Comp.pendingPick, Comp.free),
          (.unpick, .unpick .C b j, false, .pendingPick, .occupied),
          (.place, .place .C b j, true, .claimed, .occupied),
          (.unclaim, .unclaim .C b j, true, .claimed, .free)] →
      (atBay = true → (∀ st bay, (s.bin b).place ≠ .atBay st bay) → exec i s = .next (refused s .C k .binState none)) ∧
      ((atBay = true → ∃ st bay, (s.bin b).place = .atBay st bay) → (s.bin b).comp j ≠ source →
        exec i s = .next (refused s .C k .binState (some j))) ∧
      ((s.bin b).comp j = source →
        ∀ t, t = s.setBin b { s.bin b with comps := (s.bin b).comps.set j target } →
          (∀ st bay u, (s.bin b).place = .atBay st bay →
            u =
              (if k = .place ∧ (t.bin b).comps.count .free = 0 then t.setBay st bay { t.bay st bay with keep := false }
                else t).autoStow st bay →
            exec i s =
              .next (acked s .C k
                ([.num 1 j, .named ((u.1.bin b).comp j).code, .num 1 ((u.1.bin b).comps.count .free), .present,
                    .num 1 (stationCode st), .present, .num 1 bay, .present, flagField (u.1.bay st bay).keep, .present,
                    flagField (u.1.bay st bay).stowWanted] ++ optField .handle u.2) u.1)) ∧
          (atBay = false → (∀ st bay, (s.bin b).place ≠ .atBay st bay) →
            exec i s =
              .next (acked s .C k
                ([.num 1 j, .named ((t.bin b).comp j).code, .num 1 ((t.bin b).comps.count .free), .absent, .absent, .absent,
                  .absent, .absent]) t)))

/-- RELBAY clears the bay's keep flag and evaluates its auto-stow condition (R143). An evaluation that finds conditions 1 to
4 of R144 true creates a STOW of purpose AUTO to the cell of the destination scan, with authority 3, reserves the cell and
clears the stow-wanted flag; where the wing is HELD, no slot is free or the scan delivers no cell it sets that flag; else it
changes nothing (R145, R146). The bytes of flags in the ACK are the model's reading (log 8). -/
def Obligations.RelbayEvaluatesTheAutoStow : Prop :=
  (∀ s st bay u, s.serves .C → bay < 2 →
    u = (s.setBay st bay { s.bay st bay with keep := false }).autoStow st bay →
    exec (.relbay .C (stationCode st) bay) s =
      .next (acked s .C .relbay
        ([.named (u.1.bay st bay).state.code] ++
          (match (u.1.bay st bay).state with
            | .occupied b => [.present, .num 2 b]
            | .outbound b => [.present, .num 2 b]
            | _ => [.absent]) ++
          [flagField (u.1.bay st bay).keep, flagField (u.1.bay st bay).stowWanted] ++ optField .handle u.2) u.1)) ∧
  (∀ (s : State) st bay,
    ((∀ b, (s.bay st bay).state = .occupied b →
        (∃ c ∈ (s.bin b).comps, c = .pendingPick ∨ c = .claimed) ∨ (s.bay st bay).keep = true ∨ (s.bin b).order ≠ none) →
      s.autoStow st bay = (s, none)) ∧
    ∀ b, (s.bay st bay).state = .occupied b → (∀ c ∈ (s.bin b).comps, c ≠ .pendingPick ∧ c ≠ .claimed) →
      (s.bay st bay).keep = false → (s.bin b).order = none →
      (∀ i n g, s.sched.wing = .normal → s.freeSlot = some i → s.destScan st = some n → g = ((s.slot i).gen + 1) % 256 →
        s.autoStow st bay =
          (((((s.setSlot i
            ⟨g, some
              { kind := .stow, purpose := .auto, bin := some b, source := .bay st bay, dest := some (.cell n), destBay := none
                crane := craneOf st, issuer := .part, authority := 3, seq := s.counter, bypass := 0, loan := none
                level := n % 24 / 2, state := .queued, stalled := false, timer := none }⟩).setCounter (s.counter + 1)).setBin b
            { s.bin b with order := some ⟨i, g⟩ }).setCell n ⟨.reserved ⟨i, g⟩, (s.cell n).stamp, 0⟩).setBay st bay
            { s.bay st bay with stowWanted := false }, some ⟨i, g⟩)) ∧
      (s.sched.wing = .held ∨ s.freeSlot = none ∨ s.destScan st = none →
        s.autoStow st bay = (s.setBay st bay { s.bay st bay with stowWanted := true }, none)))

/-- SLOT claims the lowest FREE compartment of the first bay whose bin can take a volume: OCCUPIED, no live order, not
quarantined, bay 0 before bay 1 (R139). Where no bay can, a live return fetch for the station answers WAIT with its handle
(R140); else the return-bin scan is made: no cell answers NO-SPACE, and a cell creates a return fetch of its bin, or is
refused with WING-HELD or TABLE-FULL (R141). The station scans deliver the first cell that passes, from the station's own
end (R12, R13, R15): the destination scan an EMPTY cell, the return-bin scan an OCCUPIED one whose bin has the least free
count, is not quarantined and has no live order; each in a zone IN-SERVICE and beyond no shutter other than OPEN from the
station. The toward-home scan (R14) delivers an EMPTY cell in a zone IN-SERVICE, beyond no shutter other than OPEN from the crane's
segment (R8) and in no segment held by the other crane: of those, the first from the far end of the crane's own segment to its
own end of the wing, then the first on the far side. The presence byte before the handle in every NONE form, and 0 in the form of
NO-SPACE, for which R141 names no handle, are the model's choice (log 9). -/
def Obligations.SlotClaimsOrFetches : Prop :=
  (∀ s st, s.serves .C →
    (∀ bay b j room, bay < 2 →
      (room = fun (x : Nat) => ∃ b, (s.bay st x).state = .occupied b ∧ (s.bin b).order = none ∧ (s.bin b).quarantine = false ∧
        .free ∈ (s.bin b).comps) →
      (bay = 1 → ¬room 0) → room bay → (s.bay st bay).state = .occupied b → (s.bin b).comps[j]? = some .free →
      (∀ i : Nat, i < j → (s.bin b).comps[i]? ≠ some .free) →
      exec (.slot .C (stationCode st)) s =
        .next (acked s .C .slot
          [.named 0, .num 1 (stationCode st), .num 1 bay, .num 2 b, .num 1 j, .num 1 ((s.bin b).comps.count .free - 1)]
          (s.setBin b { s.bin b with comps := (s.bin b).comps.set j .claimed }))) ∧
    ((∀ bay b, bay < 2 → (s.bay st bay).state = .occupied b →
        (s.bin b).order ≠ none ∨ (s.bin b).quarantine = true ∨ .free ∉ (s.bin b).comps) →
      (∀ i g o, i < 64 → s.slot i = ⟨g, some o⟩ → o.kind = .fetch → o.purpose = .ret → o.dest = some (.station st) →
        (∀ j q, j < i → (s.slot j).order = some q → q.kind ≠ .fetch ∨ q.purpose ≠ .ret ∨ q.dest ≠ some (.station st)) →
        exec (.slot .C (stationCode st)) s =
          .next (acked s .C .slot [.named 1, .named 1, .present, .handle ⟨i, g⟩] s)) ∧
      ((∀ j q, j < 64 → (s.slot j).order = some q → q.kind ≠ .fetch ∨ q.purpose ≠ .ret ∨ q.dest ≠ some (.station st)) →
        (s.returnScan st = none → exec (.slot .C (stationCode st)) s = .next (acked s .C .slot [.named 1, .named 2, .absent] s)) ∧
        ∀ n b, s.returnScan st = some n → (s.cell n).state = .occupied b →
          (s.sched.wing = .held → exec (.slot .C (stationCode st)) s = .next (refused s .C .slot .wingHeld none)) ∧
          (s.sched.wing = .normal → s.freeSlot = none →
            exec (.slot .C (stationCode st)) s = .next (refused s .C .slot .tableFull none)) ∧
          ∀ i g, s.sched.wing = .normal → s.freeSlot = some i → g = ((s.slot i).gen + 1) % 256 →
            exec (.slot .C (stationCode st)) s =
              .next (acked s .C .slot [.named 1, .named 0, .present, .handle ⟨i, g⟩]
                (((s.setSlot i
                  ⟨g, some
                    { kind := .fetch, purpose := .ret, bin := some b, source := .cell n, dest := some (.station st)
                      destBay := none, crane := craneOf st, issuer := .C, authority := 3, seq := s.counter, bypass := 0
                      loan := none, level := n % 24 / 2, state := .queued, stalled := false
                      timer := none }⟩).setCounter (s.counter + 1)).setBin b { s.bin b with order := some ⟨i, g⟩ }))))) ∧
  (∀ (s : State) st (good : CellState → Prop) (scan : Option Nat),
    (scan = s.destScan st ∧ (∀ x, good x ↔ x = .empty) ∨
      scan = s.returnScan st ∧
        ∀ x, good x ↔ ∃ b, x = .occupied b ∧ s.settings.leastFree ≤ (s.bin b).comps.count .free ∧
          (s.bin b).quarantine = false ∧ (s.bin b).order = none) →
    ∀ passes : Nat → Prop,
      (passes = fun n => n < 3840 ∧ good (s.cell n).state ∧ (s.zone (zoneOfCell n)).state = .inService ∧
        ∀ k, k < 3 → (s.shutter k).state ≠ .open →
          (st = .W → 1 + n / 96 ≤ 10 * k + 10) ∧ (st = .E → 10 * k + 11 ≤ 1 + n / 96)) →
      (scan = none ↔ ∀ n, ¬passes n) ∧
        ∀ n, scan = some n ↔ passes n ∧ ∀ m, passes m → (st = .W → n ≤ m) ∧ (st = .E → m ≤ n)) ∧
  ∀ (s : State) c here (passes : Nat → Prop) (rank : Nat → Nat),
    here = (match (s.crane c).ref with
      | some r => (max 0 (min 100799 r.x)).toNat / 2400
      | none => endSegment c) →
    (passes = fun n => n < 3840 ∧ (s.cell n).state = .empty ∧ (s.zone (zoneOfCell n)).state = .inService ∧
      (s.seg (1 + n / 96)).holder ≠ some (otherCrane c) ∧
      ∀ k, k < 3 → (s.shutter k).state ≠ .open → (here ≤ 10 * k + 10 ↔ 1 + n / 96 ≤ 10 * k + 10)) →
    (rank = fun n =>
      match c with
        | .A => if n < 96 * here then 96 * here - 1 - n else n
        | .B => if 96 * (here - 1) ≤ n then n - 96 * (here - 1) else 3839 - n) →
    (s.homeScan c = none ↔ ∀ n, ¬passes n) ∧
      ∀ n, s.homeScan c = some n ↔ passes n ∧ ∀ m, passes m → rank n ≤ rank m

/-! ## Verification (chapter 8) -/

/-- TAG applies its result to the cell of the crane's DISPATCHED VERIFY by the cell's state, and completes the order (R157).
The rows are those of R158 and R159, a RESERVED, SUSPECT or BLOCKED cell leaving the result unapplied; a bin that the TAG
makes MISPLACED has its live order in QUEUED or DISPATCHED failed (R160). A TAG for an order that is no VERIFY or not
DISPATCHED, whatever its source, is refused with ORDER-STATE, and a tag naming no bin of the wing with RANGE. The place of the
ended indication in the ACK is the model's choice (log 9). -/
def Obligations.TagAppliesTheResult : Prop :=
  (∀ s p c i g o n, s.serves p → craneOfPort p = some c → i < 64 → (s.crane c).active = some ⟨i, g⟩ →
    s.slot i = ⟨g, some o⟩ →
    (∀ r t applied lost, o.source = .cell n → o.kind = .verify → o.state = .dispatched →
      (applied = true ∧
          ((∃ b, (s.cell n).state = .occupied b ∧ (s.bin b).place = .stored n ∧
              (r = .tag b ∧ b < 4096 ∧ lost = [] ∧
                  t = s.setCell n { s.cell n with stamp := some s.sched.epoch, unread := 0 } ∨
                lost = [b] ∧ t = s.enterSuspect n ∧
                  (r = .noBin ∨ r = .unreadable ∧ (s.cell n).unread ≠ 0 ∨
                    ∃ b', r = .tag b' ∧ b' < 4096 ∧ b' ≠ b ∧ ∀ m, (s.bin b').place ≠ .stored m) ∨
                ∃ b' m, r = .tag b' ∧ b' < 4096 ∧ b' ≠ b ∧ (s.bin b').place = .stored m ∧ m ≠ n ∧
                  (s.cell m).state = .occupied b' ∧ lost = [b, b'] ∧ t = (s.enterSuspect n).enterSuspect m)) ∨
            lost = [] ∧
              ((s.cell n).state = .empty ∧ (∃ b', r = .tag b' ∧ b' < 4096) ∧ t = s.enterSuspect n ∨
                (s.cell n).state = .empty ∧ r = .noBin ∧
                  t = s.setCell n { s.cell n with stamp := some s.sched.epoch, unread := 0 } ∨
                (s.cell n).state = .unverified ∧
                  (∃ b', r = .tag b' ∧ b' < 4096 ∧ (s.bin b').place = .unregistered ∧
                    t = (s.setBin b' { s.bin b' with place := .stored n, comps := List.replicate 16 .occupied }).setCell n
                      ⟨.occupied b', some s.sched.epoch, 0⟩) ∨
                (s.cell n).state = .unverified ∧
                  (∃ b', r = .tag b' ∧ b' < 4096 ∧ (s.bin b').place ≠ .unregistered) ∧ t = s.enterSuspect n ∨
                (s.cell n).state = .unverified ∧ r = .noBin ∧ t = s.setCell n ⟨.empty, some s.sched.epoch, 0⟩ ∨
                r = .unreadable ∧ (s.cell n).unread = 0 ∧ t = s.setCell n { s.cell n with unread := 1 } ∧
                  ((s.cell n).state = .empty ∨ (s.cell n).state = .unverified ∨ ∃ b, (s.cell n).state = .occupied b) ∨
                r = .unreadable ∧ (s.cell n).unread ≠ 0 ∧ t = s.enterSuspect n ∧
                  ((s.cell n).state = .empty ∨ (s.cell n).state = .unverified))) ∨
        applied = false ∧ lost = [] ∧ t = s ∧ (∀ b, r = .tag b → b < 4096) ∧
          ((∃ h, (s.cell n).state = .reserved h) ∨ (s.cell n).state = .suspect ∨ (s.cell n).state = .blocked)) →
      ∀ u, u = (lost.foldl (fun v b => v.failMisplaced none b) t).endOrder i .complete none →
        exec (.tag p i g r) s =
          .next (acked s p .tag
            ([.indication false, .num 2 n, .named (u.cell n).state.code, .indication applied] ++
              optField (.num 2) (u.cell n).state.bin) u)) ∧
    ((o.kind ≠ .verify ∨ o.state ≠ .dispatched) → ∀ r, (∀ b, r = .tag b → b < 4096) →
      exec (.tag p i g r) s = .next (refused s p .tag .orderState none)) ∧
    ∀ b, 4096 ≤ b → exec (.tag p i g (.tag b)) s = .next (refused s p .tag .range none)) ∧
  ∀ (u : State) b i g q, (u.bin b).order = some ⟨i, g⟩ → u.slot i = ⟨g, some q⟩ →
    u.failMisplaced none b = if q.state = .loaded then u else u.endOrder i .failed (some .failed)

/-- The search from a crane's cursor (R150, R151) gives the first position of its share, from the cursor up and then from 0,
whose cell is UNVERIFIED, EMPTY or OCCUPIED by a bin with no live order, lies in a zone IN-SERVICE and, while the wing is
HELD, in the verify set, and is no live VERIFY's source. The creation of a VERIFY from position k moves the cursor past it
and spends a credit, which below 8 clears the lag flag; a new position not above the old one marks the wrap, and both marks
advance the epoch and clear (R152 to R154). -/
def Obligations.TheCursorVisitsTheShare : Prop :=
  (∀ (s : State) x first size, (x = .A ∧ first = 0 ∧ size = 24 * s.settings.split ∨
      x = .B ∧ first = 24 * s.settings.split ∧ size = 3840 - 24 * s.settings.split) →
    ∀ (takes : Nat → Prop) (rank : Nat → Nat),
      (takes = fun j => j < size ∧
        ((s.cell (first + j)).state = .unverified ∨ (s.cell (first + j)).state = .empty ∨
          ∃ b, (s.cell (first + j)).state = .occupied b ∧ (s.bin b).order = none) ∧
        (s.zone (zoneOfCell (first + j))).state = .inService ∧
        (s.sched.wing = .held → zoneOfCell (first + j) ∈ s.sched.verifySet) ∧
        ∀ i o, i < 64 → (s.slot i).order = some o → o.kind = .verify → o.source ≠ .cell (first + j)) →
      (rank = fun j => if (s.schedCrane x).cursor ≤ j then j else size + j) →
      (s.cursorSearch x = none ↔ ∀ j, ¬takes j) ∧
        ∀ k, s.cursorSearch x = some k ↔ takes k ∧ ∀ j, takes j → rank k ≤ rank j) ∧
  ∀ (s : State) x k r r', r = s.schedCrane x → r' = s.schedCrane (otherCrane x) →
    ∀ next wrapped, next = (if k + 1 < s.shareSize x then k + 1 else 0) → wrapped = (r.wrap || decide (next ≤ r.cursor)) →
      (s.moveCursor x k).spendCredit x =
        ((s.setSchedCrane x
          { credits := r.credits - 1, cursor := next, wrap := wrapped && !r'.wrap,
            lag := r.lag && decide (8 ≤ r.credits - 1) }).setSchedCrane (otherCrane x)
          { r' with wrap := r'.wrap && !wrapped }).setSched
          { (((s.setSchedCrane x
              { credits := r.credits - 1, cursor := next, wrap := wrapped && !r'.wrap,
                lag := r.lag && decide (8 ≤ r.credits - 1) }).setSchedCrane (otherCrane x)
              { r' with wrap := r'.wrap && !wrapped }).sched) with
            epoch := if wrapped && r'.wrap then s.sched.epoch + 1 else s.sched.epoch }

/-- The interval expiry (R153) starts the timer again and treats crane A, then crane B: credits below 8 gain one, and
credits that are then 8, or were, have the urgent order attempted. A crane that gained a credit and waits is told by WAIT
whatever is eligible (R76). The attempt (R154): an urgent order still live sets the lag flag with URGENT-LIVE; else a cell
at the cursor gets a QUEUED VERIFY of authority 1, or, with no free slot, the lag flag is set with TABLE-FULL; no cell
changes nothing. VLAG is raised only when the flag was clear. -/
def Obligations.TheIntervalGrantsCredits : Prop :=
  (∀ s, s.running = true →
    ∃ t w, t = ((s.setSched { s.sched with timer := s.settings.interval * 1000 }).intervalCrane .A).intervalCrane .B ∧
      exec .verificationIntervalExpiry s = .next w ∧ SameBlocks w t ∧ SameReceivers w t ∧
      ∀ x, (s.schedCrane x).credits < 8 → (t.crane x).waiting = true → (t.crane x).orphan = false →
        (t.crane x).active = none →
        w.crane x = { t.crane x with waiting := false } ∧
          w.port (portOf x) = ((t.port (portOf x)).offer (.wait x (t.eligibleOrders x).length)).pump) ∧
  (∀ (s : State) x,
    ((s.schedCrane x).credits < 8 →
      s.intervalCrane x =
        (if (s.schedCrane x).credits = 7 then
          (s.setSchedCrane x { s.schedCrane x with credits := 8 }).attemptUrgent x
        else s.setSchedCrane x { s.schedCrane x with credits := (s.schedCrane x).credits + 1 })) ∧
    (8 ≤ (s.schedCrane x).credits → s.intervalCrane x = s.attemptUrgent x)) ∧
  ∀ (s lagged : State) x (live : Prop),
    (live ↔ ∃ i o, i < 64 ∧ (s.slot i).order = some o ∧ o.kind = .verify ∧ o.crane = x ∧ o.authority = 1) →
    lagged = s.setSchedCrane x { s.schedCrane x with lag := true } →
    (live → s.attemptUrgent x =
      if (s.schedCrane x).lag = true then s else lagged.raise .S (.vlag x (s.schedCrane x).credits .urgentLive)) ∧
    (¬live → s.cursorSearch x = none → s.attemptUrgent x = s) ∧
    ∀ k n, ¬live → s.cursorSearch x = some k → n = s.shareFirst x + k →
      (s.freeSlot = none → s.attemptUrgent x =
        if (s.schedCrane x).lag = true then s else lagged.raise .S (.vlag x (s.schedCrane x).credits .tableFull)) ∧
      ∀ i g, s.freeSlot = some i → g = ((s.slot i).gen + 1) % 256 →
        s.attemptUrgent x =
          (((s.setSlot i
            ⟨g, some
              { kind := .verify, purpose := .auto, bin := none, source := .cell n, dest := none, destBay := none, crane := x
                issuer := .part, authority := 1, seq := s.counter, bypass := 0, loan := none, level := n % 24 / 2
                state := .queued, stalled := false, timer := none }⟩).setCounter (s.counter + 1)).moveCursor x k).spendCredit x

/-- WHOLD with distinct zones, no live order but VERIFY orders and both cranes still takes the wing to HELD with the verify
set given (kept ascending, log 16), and tells every waiting crane that has an eligible order; else it is refused with
NOT-IDLE, and with RANGE for a set that repeats a zone or names none of the wing (R161). WRES takes the wing to NORMAL with
all four zones (R162). -/
def Obligations.WholdAndWresSetTheWing : Prop :=
  ∀ s zones, s.serves .S →
    (zones.Nodup → (∀ z ∈ zones, z < 4) →
      ((∀ i o, i < 64 → (s.slot i).order = some o → o.kind = .verify) → (∀ c, (s.crane c).dN8 = 0) →
        ∃ vs u w, (∀ z, z ∈ vs ↔ z ∈ zones) ∧ vs.Pairwise (· < ·) ∧
          u = s.setSched { s.sched with wing := .held, verifySet := vs } ∧
          w = conclude s .S .whold true (u, .ack [.named 1, .zoneSet vs]) ∧ exec (.whold .S zones) s = .next w ∧
          ∀ x, (s.crane x).waiting = true → (s.crane x).orphan = false → (s.crane x).active = none →
            u.eligibleOrders x ≠ [] →
            w.crane x = { s.crane x with waiting := false } ∧
              w.port (portOf x) = ((s.port (portOf x)).offer (.wait x (u.eligibleOrders x).length)).pump) ∧
      (((∃ i o, i < 64 ∧ (s.slot i).order = some o ∧ o.kind ≠ .verify) ∨ ∃ c, (s.crane c).dN8 ≠ 0) →
        exec (.whold .S zones) s = .next (refused s .S .whold .notIdle none))) ∧
    (¬zones.Nodup ∨ (∃ z ∈ zones, 4 ≤ z) → exec (.whold .S zones) s = .next (refused s .S .whold .range none)) ∧
    exec (.wres .S) s =
      .next (acked s .S .wres [.named 0] (s.setSched { s.sched with wing := .normal, verifySet := [0, 1, 2, 3] }))

/-! ## Fire zones and shutters (chapter 9) -/

/-- A loop sample (R164, R165) gives the value its raw class by the first row that it meets, debounces it, keeps value and
raw class, and hands a changed filtered class to the zone. The zone (R167, R169): into ALARM, a zone IN-SERVICE, DEGRADED or
RECOVERING enters CLEARING; into a fault, one IN-SERVICE becomes DEGRADED; into NORMAL, one DEGRADED becomes IN-SERVICE; any
other zone stands. A change of zone state raises ZONE to every port (R168). -/
def Obligations.LoopSamplesAreDebounced : Prop :=
  (∀ (s : State) (z : Fin 4) v m raw l, s.running = true → l = s.loop z →
    raw =
      (if m = true then .alarm else if v ≤ s.settings.shortTh then .shortFault
        else if s.settings.openTh ≤ v then .openFault else if s.settings.alarmTh ≤ v then .alarm else LoopClass.normal) →
    ∃ n t, t = (s.setManual m).setLoop z n ∧ n.lastValue = some v ∧ n.lastRaw = some raw ∧
      exec (.loopSample z v m) s =
        .next (finish s (if n.filtered = l.filtered then t else t.takeClass z n.filtered)) ∧
      (raw = l.filtered → n.filtered = l.filtered ∧ n.candidate = none ∧ n.count = 0) ∧
      (raw ≠ l.filtered → l.candidate ≠ some raw →
        n.filtered = l.filtered ∧ n.candidate = some raw ∧ n.count = 1) ∧
      (raw ≠ l.filtered → l.candidate = some raw → l.count + 1 < s.settings.debounce →
        n.filtered = l.filtered ∧ n.candidate = some raw ∧ n.count = l.count + 1) ∧
      (raw ≠ l.filtered → l.candidate = some raw → s.settings.debounce ≤ l.count + 1 →
        n.filtered = raw ∧ n.candidate = none ∧ n.count = 0)) ∧
  ∀ (s : State) z x st, st = (s.zone z).state →
    (x = .alarm → st = .inService ∨ st = .degraded ∨ st = .recovering → s.takeClass z x = s.alarm z) ∧
    (x = .alarm → st ≠ .inService → st ≠ .degraded → st ≠ .recovering → s.takeClass z x = s) ∧
    (x = .openFault ∨ x = .shortFault →
      s.takeClass z x = if st = .inService then s.zoneTo z .degraded else s) ∧
    (x = .normal → s.takeClass z x = if st = .degraded then s.zoneTo z .inService else s) ∧
    ∀ y, s.zoneTo z y =
      (((((s.setZone z { s.zone z with state := y }).raise .C (.zone z y)).raise .A (.zone z y)).raise .B
        (.zone z y)).raise .S (.zone z y))

/-- An alarm takes the zone into CLEARING (R167): the latch is set, its free segments are SEALED and its held ones
SEAL-PENDING with their holders (R124), its shutters take the demand, OPEN and OPENING going to HOLD with their timers
stopped (R175), the clearance timer starts, the fire order fate is applied in ascending slot number (R182), then EVAC goes
to each crane that holds a segment of the zone, with the segment next to the zone on the crane's station side, and ZONE to
every port (R168). The fate of one live order when zone z goes into alarm (R181): a QUEUED FETCH whose source cell or
station lies in z is CANCELLED with CANCELLED-FIRE, a QUEUED VERIFY of a cell in z is CANCELLED, a STOW or MOVE in QUEUED or
LOADED whose destination cell lies in z is re-destined, and every other order is unchanged. -/
def Obligations.AnAlarmClosesTheZone : Prop :=
  ((∀ (s : State) z, z < 4 →
    ∃ s1 s2 t : State, s1 = { s with segs := s1.segs, zones := s1.zones } ∧
      (∀ y, s1.zone y = if y = z then { s.zone z with state := .clearing, latch := true } else s.zone y) ∧
      (∀ n, n < 42 → s1.seg n =
        if zoneOfSegment n = z then
          { s.seg n with sealState := if (s.seg n).holder = none then .sealed else .sealPending }
        else s.seg n) ∧
      (∀ n, 42 ≤ n → s1.seg n = s.seg n) ∧
      s2 =
        (match z with
          | 0 => s1.takeDemand 0
          | 1 => (s1.takeDemand 0).takeDemand 1
          | 2 => (s1.takeDemand 1).takeDemand 2
          | _ => s1.takeDemand 2) ∧
      t = (List.range 64).foldl (fun u i => u.fateOne z i)
        (s2.setZone z { s2.zone z with timer := some (s.settings.clearance * 1000) }) ∧
      s.alarm z =
        (((((t.raiseEvac z .A).raiseEvac z .B).raise .C (.zone z .clearing)).raise .A (.zone z .clearing)).raise .B
          (.zone z .clearing)).raise .S (.zone z .clearing)) ∧
  (∀ (s : State) k x, x = (s.shutter k).state →
    (x = .open ∨ x = .opening → s.takeDemand k = s.moveShutter k .hold .demand) ∧
      (x ≠ .open → x ≠ .opening → s.takeDemand k = s)) ∧
  ∀ (s : State) z c, z < 4 →
    ((∃ n, n < 42 ∧ zoneOfSegment n = z ∧ (s.seg n).holder = some c) →
      s.raiseEvac z c =
        s.raise (portOf c)
          (.evac z
            (match c with
              | .A => if z = 0 then none else some (10 * z)
              | .B => if z = 3 then none else some (10 * z + 11)))) ∧
    ((∀ n, n < 42 → zoneOfSegment n = z → (s.seg n).holder ≠ some c) → s.raiseEvac z c = s)) ∧
  (∀ (s : State) z i g o, s.slot i = ⟨g, some o⟩ →
    (∀ n st, o.kind = .fetch → o.source = .cell n → o.dest = some (.station st) →
      s.fateOne z i =
        if o.state = .queued ∧ (zoneOfCell n = z ∨ zoneOfStation st = z) then s.endOrder i .cancelled (some .cancelledFire)
        else s) ∧
    (∀ n, o.kind = .verify → o.source = .cell n →
      s.fateOne z i = if o.state = .queued ∧ zoneOfCell n = z then s.endOrder i .cancelled none else s) ∧
    (o.kind = .stow ∨ o.kind = .move →
      (∀ n, o.dest = some (.cell n) →
        s.fateOne z i = if o.state ≠ .dispatched ∧ zoneOfCell n = z then s.redestine i else s) ∧
      (o.dest = none → s.fateOne z i = s)) ∧
    (o.state = .dispatched → s.fateOne z i = s))

/-- The clearance timer of a CLEARING zone expires (R170): each crane whose last touched segments include a segment of the
zone is tripped for FIRE (crane A first: log 13), then the zone becomes SEALING, and SEALED at once where every shutter of it is CLOSED, else
OBSTRUCTED where one is JAMMED. In any other state, or with the timer stopped, the expiry cannot occur and nothing changes (DEDUCED: log 2).
-/
def Obligations.TheClearanceExpiryCuts : Prop :=
  ∀ (s : State) (z : Fin 4), s.running = true →
    ((s.zone z).state ≠ .clearing ∨ (s.zone z).timer = none → exec (.clearanceTimerExpiry z) s = .next s) ∧
    ((s.zone z).state = .clearing → (s.zone z).timer ≠ none →
      ∀ a b t u,
        (∀ c, ∀ v w : State, (c = .A ∧ v = s ∧ w = a ∨ c = .B ∧ v = a ∧ w = b) →
          ((∃ n, (s.crane c).touchFirst ≤ n ∧ n ≤ (s.crane c).touchLast ∧ zoneOfSegment n = z) →
              w = v.latchTrip c .fire) ∧
            ((∀ n, (s.crane c).touchFirst ≤ n → n ≤ (s.crane c).touchLast → zoneOfSegment n ≠ z) → w = v)) →
        t = (b.setZone z { s.zone z with timer := none }).zoneTo z .sealing →
        (∀ closed jammed : Prop,
          (closed ↔ ∀ k, k < 3 → ((z : Nat) = k ∨ (z : Nat) = k + 1) → (s.shutter k).state = .closed) →
          (jammed ↔ ∃ k, k < 3 ∧ ((z : Nat) = k ∨ (z : Nat) = k + 1) ∧ (s.shutter k).state = .jammed) →
          (closed → u = t.zoneTo z .sealed) ∧ (¬closed → jammed → u = t.zoneTo z .obstructed) ∧
            (¬closed → ¬jammed → u = t)) →
        exec (.clearanceTimerExpiry z) s = .next (finish s u))

/-- A shutter's change of state is recorded with its travel timer, which runs in CLOSING and OPENING alone, and SHUT is
raised to ports A, B and S with the cause (R174, R180). The zones on its two sides follow (R171, R173): with every shutter
of it CLOSED, a SEALING or OBSTRUCTED zone becomes SEALED; at a JAMMED one, a SEALING or SEALED zone becomes OBSTRUCTED;
with every shutter of it OPEN, a RECOVERING zone returns to service, DEGRADED where its loop is in fault, its rail unsealed
(R125). Every other zone, and every other record, stands. The change of state with its SHUT comes first, then the zone below the
shutter, then the zone above it, each with its ZONE to every port (the order of the two zones is the model's choice, log 13). A
shutter that enters CLOSING or OPENING with that limit asserted is CLOSED or OPEN at once (R175). -/
def Obligations.ZonesFollowTheirShutters : Prop :=
  (∀ (s : State) k x cause t u, k < 3 →
    t = (s.setShutter k
      { s.shutter k with
        state := x
        timer := if x = .closing ∨ x = .opening then some (s.settings.travel * 1000) else none }) →
    u = s.moveShutter k x cause →
    ∀ (all : ShutterState → Nat → Prop), (all = fun y z => ∀ j, j < 3 → (z = j ∨ z = j + 1) → (t.shutter j).state = y) →
      ∀ returns : Nat → Prop,
        (returns = fun z => x = .open ∧ (z = k ∨ z = k + 1) ∧ (s.zone z).state = .recovering ∧ all .open z) →
        (∀ z, ((z = k ∨ z = k + 1) → x = .closed → ((s.zone z).state = .sealing ∨ (s.zone z).state = .obstructed) →
              all .closed z → u.zone z = { s.zone z with state := .sealed }) ∧
            ((z = k ∨ z = k + 1) → x = .jammed → ((s.zone z).state = .sealing ∨ (s.zone z).state = .sealed) →
              u.zone z = { s.zone z with state := .obstructed }) ∧
            (returns z → u.zone z =
              { s.zone z with
                state := if (s.loop z).filtered = .openFault ∨ (s.loop z).filtered = .shortFault then .degraded
                  else .inService }) ∧
            (¬returns z → ¬((z = k ∨ z = k + 1) ∧
                (x = .closed ∧ ((s.zone z).state = .sealing ∨ (s.zone z).state = .obstructed) ∧ all .closed z ∨
                  x = .jammed ∧ ((s.zone z).state = .sealing ∨ (s.zone z).state = .sealed))) →
              u.zone z = s.zone z)) ∧
          (∀ n, n < 42 → returns (zoneOfSegment n) →
            u.seg n = ⟨if (s.seg n).sealState = .sealed then none else (s.seg n).holder, .open⟩) ∧
          (∀ n, 42 ≤ n ∨ ¬returns (zoneOfSegment n) → u.seg n = s.seg n) ∧
          SameBlocks u { t with zones := u.zones, segs := u.segs } ∧ SameReceivers u s) ∧
  (∀ (s : State) k x cause (follow : State → Nat → State), k < 3 →
    (follow = fun v z =>
      if x = .closed ∧ ((v.zone z).state = .sealing ∨ (v.zone z).state = .obstructed) ∧
          ∀ j, j < 3 → (z = j ∨ z = j + 1) → (v.shutter j).state = .closed then v.zoneTo z .sealed
      else if x = .jammed ∧ ((v.zone z).state = .sealing ∨ (v.zone z).state = .sealed) then v.zoneTo z .obstructed
      else if x = .open ∧ (v.zone z).state = .recovering ∧
          ∀ j, j < 3 → (z = j ∨ z = j + 1) → (v.shutter j).state = .open then v.returnToService z
      else v) →
    s.moveShutter k x cause =
      follow
        (follow
          ((((s.setShutter k
            { s.shutter k with
              state := x
              timer := if x = .closing ∨ x = .opening then some (s.settings.travel * 1000) else none }).raise .A
                (.shut k x cause)).raise .B (.shut k x cause)).raise .S (.shut k x cause)) k) (k + 1)) ∧
  (∀ (s : State) z, z < 4 →
    ∃ v w : State, v = s.zoneTo z .inService ∧ w = { v with segs := w.segs } ∧
      (∀ n, w.seg n =
        if n < 42 ∧ zoneOfSegment n = z then ⟨if (s.seg n).sealState = .sealed then none else (s.seg n).holder, .open⟩
        else s.seg n) ∧
      s.returnToService z =
        if (s.loop z).filtered = .openFault ∨ (s.loop z).filtered = .shortFault then w.zoneTo z .degraded else w) ∧
  ∀ (s : State) k cause,
    s.enterClosing k cause =
        (if (s.shutter k).closedLimit = true then (s.moveShutter k .closing cause).moveShutter k .closed .limit
          else s.moveShutter k .closing cause) ∧
      s.enterOpening k cause =
        (if (s.shutter k).openLimit = true then (s.moveShutter k .opening cause).moveShutter k .open .limit
          else s.moveShutter k .opening cause)

/-- The travel timer of a travelling shutter that expires makes it JAMMED (R177). An edge of a limit input is seen: the
rising closed-limit of a CLOSING shutter makes it CLOSED, the rising open-limit of an OPENING one OPEN, every other edge in
those states and every edge in JAMMED changes nothing more; in OPEN, HOLD and CLOSED the shutter becomes JAMMED for DRIFT,
and from OPEN or HOLD each crane whose permit is on and whose last touched segments span it is tripped for BARRIER (R178; crane
A first: log 13). A level seen again is no edge, and a timer that does not run does not expire: neither can occur, and nothing
changes (DEDUCED: log 2). SOPEN sends a JAMMED shutter down while it is
demanded, and up a JAMMED or CLOSED one that is not; every other case is refused with CONDITION, detail STATE, and a shutter
out of bounds with RANGE (R179). -/
def Obligations.ShuttersTravelAndAreOpened : Prop :=
  (∀ (s : State) (k : Fin 3) x, s.running = true → x = (s.shutter k).state →
    ((x = .closing ∨ x = .opening) → (s.shutter k).timer ≠ none →
      exec (.travelTimerExpiry k) s = .next (finish s (s.moveShutter k .jammed .travel))) ∧
    (x ≠ .closing ∧ x ≠ .opening ∨ (s.shutter k).timer = none → exec (.travelTimerExpiry k) s = .next s) ∧
    ∀ i level seen t, (i = .closedLimit ∧ seen = (s.shutter k).closedLimit ∧
          t = s.setShutter k { s.shutter k with closedLimit := level } ∨
        i = .openLimit ∧ seen = (s.shutter k).openLimit ∧ t = s.setShutter k { s.shutter k with openLimit := level }) →
      (level = seen → exec (.limitEdge k i level) s = .next s) ∧
      (level ≠ seen →
        (x = .closing → i = .closedLimit → level = true →
          exec (.limitEdge k i level) s = .next (finish s (t.moveShutter k .closed .limit))) ∧
        (x = .opening → i = .openLimit → level = true →
          exec (.limitEdge k i level) s = .next (finish s (t.moveShutter k .open .limit))) ∧
        (x = .closing ∧ (i = .openLimit ∨ level = false) ∨ x = .opening ∧ (i = .closedLimit ∨ level = false) ∨
            x = .jammed →
          exec (.limitEdge k i level) s = .next (finish s t)) ∧
        (x = .closed → exec (.limitEdge k i level) s = .next (finish s (t.moveShutter k .jammed .drift))) ∧
        (x = .open ∨ x = .hold →
          ∀ a b j, j = t.moveShutter k .jammed .drift →
            (∀ c, ∀ v w : State, (c = .A ∧ v = j ∧ w = a ∨ c = .B ∧ v = a ∧ w = b) →
              w = (if (s.crane c).permit = true ∧ (s.crane c).touchFirst ≤ 10 * k + 10 ∧ 10 * k + 11 ≤ (s.crane c).touchLast
                then v.latchTrip c .barrier else v)) →
            exec (.limitEdge k i level) s = .next (finish s b)))) ∧
  (∀ s k x, s.serves .S → x = (s.shutter k).state →
    (3 ≤ k → exec (.sopen .S k) s = .next (refused s .S .sopen .range none)) ∧
    (k < 3 → ∀ demanded : Prop,
      (demanded ↔ ∃ z, (z = k ∨ z = k + 1) ∧
        ((s.zone z).state = .clearing ∨ (s.zone z).state = .sealing ∨ (s.zone z).state = .sealed ∨
          (s.zone z).state = .obstructed)) →
      (∀ u, (x = .jammed ∧ demanded ∧ u = s.enterClosing k .service ∨
          (x = .jammed ∨ x = .closed) ∧ ¬demanded ∧ u = s.enterOpening k .service) →
        exec (.sopen .S k) s = .next (acked s .S .sopen [.named (u.shutter k).state.code] u)) ∧
      (x ≠ .jammed ∧ x ≠ .closed ∨ x = .closed ∧ demanded →
        exec (.sopen .S k) s = .next (refused s .S .sopen .condition (some 5)))))

/-- A fire reset is taken by a zone SEALED or OBSTRUCTED whose loop is filtered NORMAL (R172): the latch is cleared, the
zone becomes RECOVERING, each shutter of it that its other zone does not demand takes the end of the demand, HOLD, CLOSING
and CLOSED entering OPENING (R175), and a zone whose shutters are then all OPEN returns to service (R173). FRST offers it to
the named zone, refused with STATE or LOOP; an edge of the fire reset input offers it to every zone in turn. That zones 0 to 3
are taken in ascending order, and the lower shutter of a zone first, is the model's choice (log 13). -/
def Obligations.FireResetsAreTaken : Prop :=
  (∀ s z ready, ready = (s.zone z).state →
    (s.serves .S →
      (4 ≤ z → exec (.frst .S z) s = .next (refused s .S .frst .range none)) ∧
      (z < 4 → ready ≠ .sealed → ready ≠ .obstructed →
        exec (.frst .S z) s = .next (refused s .S .frst .condition (some 5))) ∧
      (z < 4 → ready = .sealed ∨ ready = .obstructed → (s.loop z).filtered ≠ .normal →
        exec (.frst .S z) s = .next (refused s .S .frst .condition (some 6))) ∧
      (z < 4 → ready = .sealed ∨ ready = .obstructed → (s.loop z).filtered = .normal →
        exec (.frst .S z) s =
          .next (acked s .S .frst [.named ((s.takeReset z).zone z).state.code] (s.takeReset z)))) ∧
    s.offerReset z =
      if (ready = .sealed ∨ ready = .obstructed) ∧ (s.loop z).filtered = .normal then s.takeReset z else s) ∧
  (∀ s, s.running = true →
    exec .fireResetInput s =
      .next (finish s ((((s.offerReset 0).offerReset 1).offerReset 2).offerReset 3))) ∧
  (∀ (s : State) z t u, z < 4 → t = (s.setZone z { s.zone z with latch := false }).zoneTo z .recovering →
    u =
      (match z with
        | 0 => t.releaseDemand 0
        | 1 => (t.releaseDemand 0).releaseDemand 1
        | 2 => (t.releaseDemand 1).releaseDemand 2
        | _ => t.releaseDemand 2) →
    s.takeReset z =
      (if (u.zone z).state = .recovering ∧ ∀ k, k < 3 → (z = k ∨ z = k + 1) → (u.shutter k).state = .open then
        u.returnToService z
      else u)) ∧
  ∀ (s : State) k x, x = (s.shutter k).state →
    s.releaseDemand k =
      if (x = .hold ∨ x = .closing ∨ x = .closed) ∧
          (s.zone k).state ∈ [.inService, .degraded, .recovering] ∧
            (s.zone (k + 1)).state ∈ [.inService, .degraded, .recovering]
      then s.enterOpening k .reset else s

/-! ## Settings and signal lines (chapters 9 and 11) -/

/-- The parameters have the codes, widths, ranges and defaults of R202, crane B's those of crane A but for the home position's
default, and no other code names one; a combine mode and a line source are held as the codes of R202 give. SET (R203) is refused with RANGE for a code that
names none or a coded value outside its codes, with NOT-IDLE for a parameter of a crane whose permit is on, and with RANGE
for a threshold out of order; else the parameter holds the value clamped into its range, and nothing else changes but that a
new CPR drops the crane's index phase, a new split column sets to 0 each cursor beyond its share (R150), and a new generator
setting restarts the generator (R184). A value already held changes nothing. -/
def Obligations.SetTakesTheValue : Prop :=
  ((∀ e ∈ [(1, 2, 1024, 65535, 16384), (2, 3, 0, 100799, 1200), (3, 2, 64, 65535, 4096), (4, 1, 1, 8, 2),
        (5, 2, 500, 6000, 4000), (6, 2, 50, 500, 250), (7, 2, 300, 3000, 800), (8, 1, 0, 200, 60), (9, 2, 50, 1000, 150),
        (18, 3, 0, 100799, 99600), (32, 2, 30, 600, 120), (33, 1, 1, 158, 80), (34, 1, 1, 16, 4), (35, 2, 10, 600, 60),
        (36, 1, 0, 255, 20), (37, 1, 0, 255, 140), (38, 1, 0, 255, 235), (39, 1, 2, 8, 3), (40, 1, 10, 120, 45),
        (41, 1, 5, 60, 20)],
      ∃ q, paramOf e.1 = some q ∧ paramWidth q = e.2.1 ∧ paramRange q = some (e.2.2.1, e.2.2.2.1) ∧
        State.reset.param q = e.2.2.2.2) ∧
    (∀ c, c ≤ 9 → c ≠ 0 → ∃ r, paramOf c = some (.crane .A r) ∧ paramOf (c + 16) = some (.crane .B r) ∧
      paramWidth (.crane .B r) = paramWidth (.crane .A r) ∧ paramRange (.crane .B r) = paramRange (.crane .A r) ∧
      (c ≠ 2 → State.reset.param (.crane .B r) = State.reset.param (.crane .A r))) ∧
    (∀ c, paramOf c ≠ none ↔ 1 ≤ c ∧ c ≤ 9 ∨ 17 ≤ c ∧ c ≤ 25 ∨ 32 ≤ c ∧ c ≤ 41 ∨ 48 ≤ c ∧ c ≤ 63 ∨ 64 ≤ c ∧ c ≤ 71) ∧
    (∀ k, k < 4 → ∀ e ∈ [(48, GenParam.period, some (1, 255), 10), (49, .start, some (0, 255), 0), (50, .width, some (0, 255), 5),
        (51, .mode, none, 0)],
      paramOf (e.1 + 4 * k) = some (.gen k e.2.1) ∧ paramWidth (.gen k e.2.1) = 1 ∧ paramRange (.gen k e.2.1) = e.2.2.1 ∧
        State.reset.param (.gen k e.2.1) = e.2.2.2) ∧
    ∀ n, n < 8 → paramOf (64 + n) = some (.line n) ∧ paramWidth (.line n) = 1 ∧ paramRange (.line n) = none ∧
      State.reset.param (.line n) = 0) ∧
  (∀ (s : State) k, ∀ e ∈ [(0, CombineMode.self), (1, .and), (2, .or), (3, .alternate)],
    s.param (.gen k .mode) = e.1 ↔ (s.genSettings k).mode = e.2) ∧
  (∀ (s : State) n, ∀ e ∈ lineSourceCodes, s.line n = e.2 → s.param (.line n) = e.1) ∧
  ∀ s code v, s.serves .S →
    (paramOf code = none → exec (.setParam .S code v) s = .next (refused s .S .set .range none)) ∧
    ∀ q w, paramOf code = some q →
      w = (match paramRange q with
        | none => v
        | some (lo, hi) => max lo (min v hi)) →
      ∀ coded busy ordered : Prop,
        (coded ↔ (∀ k, q = .gen k .mode → v < 4) ∧ ∀ n, q = .line n → v < 16) →
        (busy ↔ ∃ c r, q = .crane c r ∧ (s.crane c).permit = true) →
        (ordered ↔ (q = .shortTh → w < s.settings.alarmTh ∧ s.settings.alarmTh < s.settings.openTh) ∧
          (q = .alarmTh → s.settings.shortTh < w ∧ w < s.settings.openTh) ∧
          (q = .openTh → s.settings.shortTh < s.settings.alarmTh ∧ s.settings.alarmTh < w)) →
        (¬coded → exec (.setParam .S code v) s = .next (refused s .S .set .range none)) ∧
        (coded → busy → exec (.setParam .S code v) s = .next (refused s .S .set .notIdle none)) ∧
        (coded → ¬busy → ¬ordered → exec (.setParam .S code v) s = .next (refused s .S .set .range none)) ∧
        (coded → ¬busy → ordered →
          ∃ u, exec (.setParam .S code v) s =
              .next (acked s .S .set [.num 1 code, .num (paramWidth q) w, .indication (decide (w ≠ v))] u) ∧
            u.param q = w ∧ (∀ q', q' ≠ q → u.param q' = s.param q') ∧
            u = { s with settings := u.settings, lines := u.lines, craneA := u.craneA, craneB := u.craneB, sched := u.sched
                         gens := u.gens } ∧
            u.sched = { s.sched with a := u.sched.a, b := u.sched.b } ∧
            (w = s.param q → u = s) ∧
            (w ≠ s.param q →
              (∀ n x, q = .line n → (v, x) ∈ lineSourceCodes → u.line n = x) ∧
              (∀ c, u.crane c =
                if q = .crane c .cpr then
                  { s.crane c with ref := (s.crane c).ref.map (fun r => { r with phase := none }) }
                else s.crane c) ∧
              (∀ x size, (x = .A ∧ size = 24 * w ∨ x = .B ∧ size = 3840 - 24 * w) →
                u.schedCrane x =
                  if q = .split ∧ size ≤ (s.schedCrane x).cursor then { s.schedCrane x with cursor := 0 }
                  else s.schedCrane x) ∧
              ∀ k, ((∃ r, q = .gen k r) → u.gen k = ⟨0, false⟩) ∧ ((∀ r, q ≠ .gen k r) → u.gen k = s.gen k)))

/-- A tick advances the four generators (R184), and the lines follow the state (R174, R183 to R185, R104): each generator's
raw pattern is on while S ≤ t < S + W and is combined with its neighbour's, a signal line follows its source, the panel
outputs and the shutter and drive-enable outputs follow the states. While the part does not run every output is deasserted
(R205). A transmit line rests at 1: while its transmitter is idle (R188, R198, R201), while the part does not run (R205), and after
the last bit of a message; while a message is sent it has, in each character's eleven bit times, start bit 0, the byte least
significant bit first, marker 1 on the head alone, stop bit 1 (R188, R189). -/
def Obligations.SignalsFollowTheState : Prop :=
  (∀ s, s.running = true →
    ∃ t, exec .generatorTick s = .next t ∧ t = { s with gens := t.gens } ∧
      ∀ k, t.gen k =
        if k < 4 then
          if (s.gen k).t + 1 < (s.genSettings k).period then ⟨(s.gen k).t + 1, (s.gen k).odd⟩ else ⟨0, !(s.gen k).odd⟩
        else s.gen k) ∧
  ∀ (s : State) (raw out : Nat → Bool) trouble,
    (raw = fun k =>
      decide ((s.genSettings k).start ≤ (s.gen k).t ∧ (s.gen k).t < (s.genSettings k).start + (s.genSettings k).width)) →
    (out = fun k =>
      match (s.genSettings k).mode with
        | .self => raw k
        | .and => raw k && raw ((k + 3) % 4)
        | .or => raw k || raw ((k + 3) % 4)
        | .alternate => if (s.gen k).odd then raw ((k + 3) % 4) else raw k) →
    (trouble = true ↔
      (∃ z, z < 4 ∧ ((s.loop z).filtered = .openFault ∨ (s.loop z).filtered = .shortFault)) ∨
        (∃ k, k < 3 ∧ (s.shutter k).state = .jammed) ∨ ∃ z, z < 4 ∧ (s.zone z).state = .obstructed) →
    (s.running = true →
      (∀ n, (s.line n = .low → s.signalLine n = false) ∧ (s.line n = .high → s.signalLine n = true) ∧
        (∀ k, k < 4 → (s.line n = .gen k → s.signalLine n = out k) ∧ (s.line n = .notGen k → s.signalLine n = !out k)) ∧
        (∀ z, s.line n = .zoneAlarm z → s.signalLine n = (s.zone z).latch) ∧
        (s.line n = .anyAlarm → (s.signalLine n = true ↔ ∃ z, z < 4 ∧ (s.zone z).latch = true)) ∧
        (s.line n = .trouble → s.signalLine n = trouble)) ∧
      s.troubleOutput = trouble ∧ (∀ z, s.zoneSealedOutput z = decide ((s.zone z).state = .sealed)) ∧
      (∀ k, s.closeOutput k = decide ((s.shutter k).state = .closing) ∧
        s.openOutput k = decide ((s.shutter k).state = .opening)) ∧
      ∀ c, s.driveEnable c = (s.crane c).permit) ∧
    (s.running = false →
      (∀ n, s.signalLine n = false) ∧ s.troubleOutput = false ∧ (∀ z, s.zoneSealedOutput z = false) ∧
        (∀ k, s.closeOutput k = false ∧ s.openOutput k = false) ∧ ∀ c, s.driveEnable c = false) ∧
    ∀ p, ((s.running = false ∨ (s.port p).sending = none) → ∀ i, s.lineLevel p i = true) ∧
      ∀ m, s.running = true → (s.port p).sending = some m →
        (∀ i, 11 * m.bytes.length ≤ i → s.lineLevel p i = true) ∧
        ∀ n x, m.bytes[n]? = some x →
          s.lineLevel p (11 * n) = false ∧ (∀ j, j < 8 → s.lineLevel p (11 * n + 1 + j) = x.getLsbD j) ∧
            s.lineLevel p (11 * n + 9) = decide (n = 0) ∧ s.lineLevel p (11 * n + 10) = true

/-! ## Starts (11.3 to 11.5) -/

/-- A start is taken at its cause (R205): at the release of the reset input, warm when it was asserted while the part ran,
and after power-on cold or warm by the retention-valid input; RSTRT is answered with ACK, stops port S's request server, and
takes the warm start when the last character of that ACK has been sent, at the field-line levels as they then stand (R206), which
the command carries (log 25). A loss
of main supply and an assertion of the reset input change nothing but that the part does not run. The end of any other
message lets the transmitter choose the response before the head of the notice queue (R198). POWER_ON
of a powered part, RESET_ASSERTED where it does not run, RESET_RELEASED where it runs or has no supply, and TRANSMIT_COMPLETE of
an idle transmitter cannot occur, and change nothing (DEDUCED: log 2). -/
def Obligations.StartsAreTakenAtTheirCauses : Prop :=
  (∀ s v l,
    (s.power = .inReset → exec (.resetReleased v l) s = .next (s.warmStart l)) ∧
    (s.power = .powerOnWait →
      exec (.resetReleased true l) s = .next (s.warmStart l) ∧ exec (.resetReleased false l) s = .next (s.coldStartAt l)) ∧
    (s.power = .running ∨ s.power = .unpowered → exec (.resetReleased v l) s = .next s)) ∧
  (∀ s, exec .lossOfMainSupply s = .next { s with power := .unpowered } ∧
    (s.power = .unpowered → exec .powerOn s = .next { s with power := .powerOnWait }) ∧
    (s.power ≠ .unpowered → exec .powerOn s = .next s) ∧
    (s.power = .running → exec .resetAsserted s = .next { s with power := .inReset }) ∧
    (s.power ≠ .running → exec .resetAsserted s = .next s)) ∧
  (∀ s, s.serves .S →
    exec (.rstrt .S) s = .next (acked s .S .rstrt [] (s.setPort .S { s.port .S with stopped := true }))) ∧
  (∀ s p l m, s.running = true →
    ((s.port p).sending = none → exec (.transmitComplete ⟨p, l⟩) s = .next s) ∧
    ((s.port p).sending = some m →
      ((∃ fields, p = .S ∧ s.portS.stopped = true ∧ m = .ack .rstrt fields) →
        exec (.transmitComplete ⟨p, l⟩) s = .next (s.warmStart l)) ∧
      ((∀ fields, p ≠ .S ∨ s.portS.stopped = false ∨ m ≠ .ack .rstrt fields) →
        ∃ t, exec (.transmitComplete ⟨p, l⟩) s = .next t ∧ SameBlocks t s ∧ SameReceivers t s ∧
          (∀ r, (s.port p).slot = some r → t.port p = { s.port p with sending := some r, slot := none }) ∧
          (∀ n rest, (s.port p).slot = none → (s.port p).queue = n :: rest →
            t.port p = { s.port p with sending := some (.notice n), queue := rest }) ∧
          ((s.port p).slot = none → (s.port p).queue = [] → t.port p = { s.port p with sending := none }) ∧
          ∀ q, q ≠ p → t.port q = (s.port q).pump)))

/-- What a start leaves (R206): the order table empty (R64), every crane unreferenced and tripped for START (R112), segments
free and open (R126), zones, loops and signal unit as R187 gives, each shutter by its limit inputs, the ports as R201 gives
with the rates of the straps. A warm start makes the directory changes of R40 and keeps what the retention memory holds
(R163, R204); a cold start takes the cold values. Tables are in their canonical form before it. The change over eight samples that
a start leaves is 0 by the model's choice (log 4). -/
def Obligations.AStartSetsEveryBlock : Prop :=
  (∀ (s w : State) l, s.tablesWf = true → (w = s.warmStart l ∨ w = s.coldStartAt l) →
    (∀ i, w.slot i = ⟨0, none⟩) ∧ w.counter = 0 ∧ (∀ n, w.seg n = ⟨none, .open⟩) ∧
      (∀ z, w.zone z = ⟨.inService, false, none⟩) ∧ (∀ z, w.loop z = ⟨.normal, none, 0, none, none⟩) ∧
      (∀ k, w.gen k = ⟨0, false⟩) ∧ (∀ n, w.line n = .low) ∧ w.power = .running ∧ w.pending = s.pending ∧ w.manualRelease = l.manualRelease ∧
      (∀ c i, (c = .A ∧ i = l.inputsA ∨ c = .B ∧ i = l.inputsB) →
        w.crane c =
          { ref := none, counter := 0, history := List.replicate 8 0, dN8 := 0, speed := 0, direction := .none
            margin := (w.craneSettings c).mFixed, envLo := 2400 * endSegment c, envHi := 2400 * endSegment c + 2399
            touchFirst := endSegment c, touchLast := endSegment c, tripLatched := true, tripFirst := some .start
            tripCauses := [.start], window := .stopped, keepalive := .stopped, creep := false, permit := false
            carried := (w.crane c).carried, active := none, lastCompleted := none, lastLevel := 0
            orphan := (w.crane c).carried.isSome, waiting := false
            filters := ⟨⟨i.phase1, i.phase1, none⟩, ⟨i.phase2, i.phase2, none⟩, ⟨i.index, i.index, none⟩,
              ⟨i.home, i.home, none⟩⟩ }) ∧
      (∀ k x, (k = 0 ∧ x = l.limits0 ∨ k = 1 ∧ x = l.limits1 ∨ k = 2 ∧ x = l.limits2) →
        w.shutter k =
          { state :=
              match x.closedLimit, x.openLimit with
                | true, false => .closed
                | false, true => .open
                | _, _ => .jammed
            timer := none, closedLimit := x.closedLimit, openLimit := x.openLimit }) ∧
      (∀ p x, (p = .C ∧ x = l.strapsC ∨ p = .A ∧ x = l.strapsA ∨ p = .B ∧ x = l.strapsB ∨ p = .S ∧ x = l.strapsS) →
        w.port p =
          { straps := x
            rate :=
              match x.first, x.second with
                | false, false => .r19200
                | true, false => .r57600
                | false, true => .r115200
                | true, true => .r230400
            afterBreak := false, pendingLoss := false, fifo := [], partialMsg := none, item := none, stopped := false
            slot := none, sending := none, queue := []
            flags := ⟨false, false, false, false, false, false⟩ })) ∧
  (∀ (s w : State) l, s.tablesWf = true → w = s.warmStart l →
    (∀ n, w.bin n =
      { s.bin n with
        order := none
        comps :=
          match (s.bin n).place with
            | .atBay _ _ => (s.bin n).comps
            | _ => (s.bin n).comps.map (fun c => if c = .pendingPick then .occupied else c) }) ∧
      (∀ n, w.cell n =
        match (s.cell n).state with
          | .reserved _ => { s.cell n with state := .empty }
          | _ => s.cell n) ∧
      (∀ st b, w.bay st b =
        match (s.bay st b).state with
          | .inbound _ => ⟨.empty, false, false⟩
          | .outbound n => { s.bay st b with state := .occupied n }
          | _ => s.bay st b) ∧
      (∀ c, (w.crane c).carried = (s.crane c).carried) ∧ w.settings = s.settings ∧
      w.sched =
        { timer := s.settings.interval * 1000, a := ⟨0, s.sched.a.cursor, s.sched.a.wrap, false⟩
          b := ⟨0, s.sched.b.cursor, s.sched.b.wrap, false⟩, epoch := s.sched.epoch, wing := .normal
          verifySet := [0, 1, 2, 3] } ∧
      w.coldStart = if s.coldStart = .cold then .cold else .warm) ∧
  ∀ (s w : State) l, w = s.coldStartAt l →
    (∀ n, w.bin n = ⟨.unregistered, false, List.replicate 16 .occupied, none⟩) ∧
      (∀ n, w.cell n = ⟨.unverified, none, 0⟩) ∧ (∀ st b, w.bay st b = ⟨.empty, false, false⟩) ∧
      (∀ c, (w.crane c).carried = none) ∧ w.settings = .default ∧
      w.sched = ⟨60000, ⟨0, 0, false, false⟩, ⟨0, 0, false, false⟩, 0, .normal, [0, 1, 2, 3]⟩ ∧ w.coldStart = .cold

/-! ## The wing link (chapter 10) -/

/-- A character takes each bit from two of its three samples, a disagreement setting NOISE (R192). A break sets BREAK,
empties the FIFO, discards the partial message, keeps a finished item, trips the crane of the port, and is the only one
until the line has been 1 (R193, R107). Another character enters the FIFO, with FRAMING and a damage mark where its stop bit
is 0, and a loss mark after a loss; a full FIFO loses it with OVERRUN (R194). A start bit not confirmed changes nothing (log
21). The assembler (R195) takes nothing while it holds an item or the FIFO is empty. Else, from the head of the FIFO:
hunting, it discards a character with marker 0 and begins a message at one with marker 1, damaged by a damage mark alone;
assembling, marker 0 joins the message with its marks, and marker 1 discards the partial message with DAMAGED and begins
another. The character that ends a message waits for its own command (log 6). -/
def Obligations.CharactersAreReceivedAndAssembled : Prop :=
  (∀ s p q (broken : LineFlags → State), s.running = true → q = s.port p →
    (broken = fun flags =>
      let t := s.setPort p
        { q with flags := { flags with brk := true }, fifo := [], pendingLoss := false, partialMsg := none, afterBreak := true }
      match p with
        | .A => t.latchTrip .A .break
        | .B => t.latchTrip .B .break
        | _ => t) →
    (q.afterBreak = true → exec (.lineBreak p) s = .next s ∧ ∀ f, exec (.characterReceived p f) s = .next s) ∧
    exec (.breakEnd p) s = .next (s.setPort p { q with afterBreak := false }) ∧
    (q.afterBreak = false → exec (.lineBreak p) s = .next (finish s (broken q.flags))) ∧
    ∀ f (bit : Samples → Bool) noisy d flags, q.afterBreak = false →
      (bit = fun t => (t.a && t.b) || (t.a && t.c) || (t.b && t.c)) →
      (bit f.start = true → exec (.characterReceived p f) s = .next s) ∧
      (bit f.start = false →
        (noisy = true ↔
          ∃ t ∈ [f.d0, f.d1, f.d2, f.d3, f.d4, f.d5, f.d6, f.d7, f.marker, f.stop], ¬(t.a = t.b ∧ t.b = t.c)) →
        d = BitVec.ofBoolListLE [bit f.d0, bit f.d1, bit f.d2, bit f.d3, bit f.d4, bit f.d5, bit f.d6, bit f.d7] →
        flags = { q.flags with noise := q.flags.noise || noisy } →
        (d = 0 → bit f.marker = false → bit f.stop = false →
          exec (.characterReceived p f) s = .next (finish s (broken flags))) ∧
        ((d ≠ 0 ∨ bit f.marker = true ∨ bit f.stop = true) →
          ∀ framed, framed = { flags with framing := flags.framing || !bit f.stop } →
            (q.fifo.length < 64 →
              exec (.characterReceived p f) s =
                .next (finish s
                  (s.setPort p
                    ({ q with
                      flags := framed
                      fifo := q.fifo ++ [⟨d, bit f.marker, !bit f.stop, q.pendingLoss⟩]
                      pendingLoss := false } : LinkPort).assemble))) ∧
            (64 ≤ q.fifo.length →
              exec (.characterReceived p f) s =
                .next (finish s
                  (s.setPort p
                    ({ q with flags := { framed with overrun := true }, pendingLoss := true } : LinkPort).assemble)))))) ∧
  (∀ (q : LinkPort) c rest,
    (q.item ≠ none ∨ q.fifo = [] → q.assemble = q) ∧
    (q.item = none → q.fifo = c :: rest →
      (q.partialMsg = none →
        q.assemble =
          ({ q with fifo := rest, partialMsg := if c.marker then some ⟨[c.data], c.damage⟩ else none } : LinkPort).assemble) ∧
      ∀ m, q.partialMsg = some m →
        (c.marker = true →
          q.assemble =
            ({ q with
              fifo := rest
              partialMsg := some ⟨[c.data], c.damage⟩
              flags := { q.flags with damaged := true } } : LinkPort).assemble) ∧
        (c.marker = false →
          ((m.bytes.length = 1 ∧ 48 < c.data.toNat ∨ 2 ≤ m.bytes.length ∧ m.bytes.length = m.length + 3) → q.assemble = q) ∧
          (¬(m.bytes.length = 1 ∧ 48 < c.data.toNat ∨ 2 ≤ m.bytes.length ∧ m.bytes.length = m.length + 3) →
            q.assemble =
              ({ q with
                fifo := rest
                partialMsg := some ⟨m.bytes ++ [c.data], m.damaged || c.damage || c.loss⟩ } : LinkPort).assemble))))

/-- The last character of a message ends it with one item (R196): refused with LINE and DAMAGED where it is marked damaged,
with CHECK where the check differs from the CRC of R189, else the good message, which on a crane's port restarts a RUNNING
keepalive (R106). A length above 48 ends it with LENGTH (R195). The character is taken by a command of its own (log 6), and an
over-long length sets no DAMAGED flag (log 29). With no such character at the head of the FIFO the command cannot occur, and nothing
changes (log 2). A server that is free answers an item that the assembler refuses with NAK of its reason, and a good message of a
kind that is no request kind of R191 with UNKNOWN-KIND; the item is taken and the assembler goes on (R197 steps 1 and 2,
R196). With any other item, none, or a server that is not free, these events cannot occur and nothing changes (DEDUCED: log 2). -/
def Obligations.ItemsAreMadeAndRefused : Prop :=
  (∀ s p q, s.running = true → q = s.port p →
    (∀ code len body hi damagedBefore c rest damaged item, q.item = none →
      q.partialMsg = some ⟨code :: len :: (body ++ [hi]), damagedBefore⟩ → body.length = len.toNat →
      q.fifo = c :: rest → c.marker = false → damaged = (damagedBefore || c.damage || c.loss) →
      item =
        (if damaged = true then .refused code .line
          else if crc16 (code :: len :: body) = hi ++ c.data then .message code body else Item.refused code .check) →
      ∀ u, u = s.setPort p
          { q with fifo := rest, partialMsg := none, item := some item
                   flags := { q.flags with damaged := q.flags.damaged || damaged } } →
        (∀ x, craneOfPort p = some x → item = .message code body → (s.crane x).keepaliveRunning = true →
          exec (.messageComplete p) s =
            .next (u.setCrane x { s.crane x with keepalive := .running (s.crane x).window.ms })) ∧
        ((craneOfPort p = none ∨ item ≠ .message code body ∨
            ∀ x, craneOfPort p = some x → (s.crane x).keepaliveRunning = false) →
          exec (.messageComplete p) s = .next u)) ∧
    (∀ code damaged c rest, q.item = none → q.partialMsg = some ⟨[code], damaged⟩ → q.fifo = c :: rest → c.marker = false →
      48 < c.data.toNat →
      exec (.overlengthMessage p) s =
        .next (s.setPort p { q with fifo := rest, partialMsg := none, item := some (.refused code .length) })) ∧
    ((q.item ≠ none ∨ q.partialMsg = none ∨ ∀ c rest, q.fifo = c :: rest → c.marker = true) →
      exec (.messageComplete p) s = .next s ∧ exec (.overlengthMessage p) s = .next s)) ∧
  (∀ s p q code, s.running = true → q = s.port p →
    (q.slot = none → q.stopped = false → ∀ r u,
      u = (s.setPort p { ({ q with item := none } : LinkPort).assemble with slot := some (.nak code r none) }) →
      (q.item = some (.refused code r) → exec (.assemblerRefusal p) s = .next (finish s u)) ∧
      ∀ body, q.item = some (.message code body) →
        (r = .unknownKind →
          code.toNat ∉ List.range' 1 7 ++ List.range' 0x10 8 ++ List.range' 0x20 9 ++ List.range' 0x30 18 →
          exec (.unknownKind p) s = .next (finish s u)) ∧
        (code.toNat ∈ List.range' 1 7 ++ List.range' 0x10 8 ++ List.range' 0x20 9 ++ List.range' 0x30 18 →
          exec (.unknownKind p) s = .next s)) ∧
    ((q.slot ≠ none ∨ q.stopped = true ∨ ∀ c r, q.item ≠ some (.refused c r)) → exec (.assemblerRefusal p) s = .next s) ∧
    ((q.slot ≠ none ∨ q.stopped = true ∨ ∀ c body, q.item ≠ some (.message c body)) → exec (.unknownKind p) s = .next s))

/-- STAT answers with the port's sticky flags as a mask, the cold-start indicator, the wing state, the verify set, the live
order count, the epoch, each crane's credits, cursor and lag flag, and the trouble output; it clears the port's flags and,
on port S, the indicator (R200, R206). RDCRN, RDSEG and RDZONE answer with the fields of R111, R123 and R186 in their order
and change nothing; a number out of bounds is refused with RANGE (R9). RDZONE's manual-release level is that of the input as the
request is taken, which the command carries (log 17); the bytes of flags are the model's reading (log 8), and so are the presence
bytes of fields absent together, and the byte before each timer, which says whether it runs (log 9). -/
def Obligations.StatAndRailReadsAnswer : Prop :=
  (∀ (s : State) p f, s.serves p → f = (s.port p).flags →
    exec (.stat p) s =
      .next (acked s p .stat
        [.num 1 (f.noise.toNat + 2 * f.framing.toNat + 4 * f.overrun.toNat + 8 * f.brk.toNat + 16 * f.damaged.toNat +
            32 * f.noticeLost.toNat),
          .named (match s.coldStart with | .clear => 0 | .warm => 1 | .cold => 2),
          .named (match s.sched.wing with | .normal => 0 | .held => 1), .zoneSet s.sched.verifySet,
          .num 1 ((List.range 64).countP (fun i => (s.slot i).order.isSome)), .num 2 s.sched.epoch.toNat,
          .num 1 s.sched.a.credits, .num 2 s.sched.a.cursor, flagField s.sched.a.lag, .num 1 s.sched.b.credits,
          .num 2 s.sched.b.cursor, flagField s.sched.b.lag, .indication s.trouble]
        ({ s with coldStart := if p = Port.S then .clear else s.coldStart }.setPort p
          { s.port p with flags := ⟨false, false, false, false, false, false⟩ }))) ∧
  (∀ s p, s.serves p →
    (∀ c r, r = s.crane c →
      exec (.rdcrn p (craneCode c)) s =
        .next (acked s p .rdcrn
          (([.named (if r.ref = none then 0 else 1), .num 3 r.counter.toNat] : List Field) ++
            optField (fun q => .num 3 q.nHome.toNat) r.ref ++
            optField (fun n => .num 3 n.toNat) (r.ref.bind (fun q => q.phase)) ++ optField (fun q => .int 3 q.x) r.ref ++
            ([.int 3 r.dN8, .num 2 r.speed, .named r.direction.code, .num 2 r.margin, .num 3 r.envLo, .num 3 r.envHi,
              .num 1 r.touchFirst, .num 1 r.touchLast, .indication r.tripLatched] : List Field) ++
            optField (fun t => .named t.code) r.tripFirst ++
            [causeMask r.tripCauses, .named r.window.code, .named r.keepalive.code] ++
            optField (.num 2) r.keepalive.left ++ [flagField r.creep, flagField r.permit] ++
            optField (.num 2) r.carried ++ optField .handle r.active ++ optField .handle r.lastCompleted ++
            ([.num 1 r.lastLevel, flagField r.orphan, .indication r.waiting] : List Field)) s)) ∧
    (∀ n, 2 ≤ n → exec (.rdcrn p n) s = .next (refused s p .rdcrn .range none)) ∧
    (∀ n boundary, n < 42 →
      ((∃ k, k < 3 ∧ (n = 10 * k + 10 ∨ n = 10 * k + 11) ∧
          boundary = [.present, .num 1 k, .named (s.shutter k).state.code]) ∨
        (∀ k, k < 3 → n ≠ 10 * k + 10 ∧ n ≠ 10 * k + 11) ∧ boundary = [.absent]) →
      exec (.rdseg p n) s =
        .next (acked s p .rdseg
          (([.named (match (s.seg n).holder with | none => 0 | some .A => 1 | some .B => 2),
            .named (s.seg n).sealState.code, .num 1 (zoneOfSegment n)] : List Field) ++ boundary ++ holdingFields (s.holdingEnds .A) ++
              holdingFields (s.holdingEnds .B)) s)) ∧
    (∀ n, 42 ≤ n → exec (.rdseg p n) s = .next (refused s p .rdseg .range none)) ∧
    (∀ z level (sh : Nat → List Field) (count : Seal → Nat), z < 4 →
      (sh = fun k =>
        ([.num 1 k, .named (s.shutter k).state.code, flagField (s.demanded k)] : List Field) ++ optField (.num 2) (s.shutter k).timer ++
          ([.indication (s.shutter k).closedLimit, .indication (s.shutter k).openLimit] : List Field)) →
      (count = fun x => (List.range 42).countP (fun n => zoneOfSegment n == z && (s.seg n).sealState == x)) →
      exec (.rdzone p ⟨z, level⟩) s =
        .next (acked s p .rdzone
          (([.named (s.zone z).state.code, flagField (s.zone z).latch] : List Field) ++ optField (.num 3) (s.zone z).timer ++
            optField (.num 1) (s.loop z).lastValue ++ optField (fun c => .named c.code) (s.loop z).lastRaw ++
            ([.named (s.loop z).filtered.code] : List Field) ++ optField (fun c => .named c.code) (s.loop z).candidate ++
            ([.num 1 (s.loop z).count] : List Field) ++
            (match z with | 0 => sh 0 | 1 => sh 0 ++ sh 1 | 2 => sh 1 ++ sh 2 | _ => sh 2) ++
            ([.indication (decide ((s.zone z).state = .sealed)), .indication s.trouble, .indication level,
              .num 1 (count .open), .num 1 (count .sealPending), .num 1 (count .sealed)] : List Field))
            { s with manualRelease := level })) ∧
    ∀ z level, 4 ≤ z → exec (.rdzone p ⟨z, level⟩) s = .next (refused s p .rdzone .range none))

/-- A request that its port takes and that carries a number outside the bounds of R9, a code outside the set of its field, or a
list that is too long or has an entry out of bounds (R10), is refused with RANGE, no detail, and nothing else changes: every
request with such a field whose own statement does not already say so. -/
def Obligations.OutOfBoundsFieldsAreRefused : Prop :=
  ∀ s p k i, s.serves p → p ∈ kindPorts k →
    ((∃ b st picks loan a, k = .fetch ∧ i = .fetch p b st picks loan a ∧
        (4096 ≤ b ∨ 2 ≤ st ∨ 16 < picks.length ∨ (∃ j ∈ picks, 16 ≤ j) ∨ 4 ≤ a)) ∨
      (∃ b j, (k = .pick ∧ i = .pick p b j ∨ k = .unpick ∧ i = .unpick p b j ∨ k = .place ∧ i = .place p b j ∨
          k = .unclaim ∧ i = .unclaim p b j) ∧ (4096 ≤ b ∨ 16 ≤ j)) ∨
      (∃ st, k = .slot ∧ i = .slot p st ∧ 2 ≤ st) ∨
      (∃ st bay, k = .relbay ∧ i = .relbay p st bay ∧ (2 ≤ st ∨ 2 ≤ bay)) ∨
      (∃ sl g, (k = .cancel ∧ i = .cancel p sl g ∨ p = .S ∧ k = .cancel ∧ i = .cancelOnPortS sl g ∨
          k = .rdord ∧ i = .rdord p sl g ∨ k = .load ∧ i = .load p sl g) ∧ 64 ≤ sl) ∨
      (∃ level, k = .next ∧ i = .nextWork p level ∧ 12 ≤ level) ∨
      (∃ sl g cell, k = .done ∧ i = .done p sl g cell ∧ (64 ≤ sl ∨ ∃ n, cell = some n ∧ 3840 ≤ n)) ∨
      (∃ sl g reason cell, k = .unable ∧ i = .unable p sl g reason cell ∧
        (64 ≤ sl ∨ 5 ≤ reason ∨ ∃ n, cell = some n ∧ 3840 ≤ n)) ∨
      (∃ sl g r, k = .tag ∧ i = .tag p sl g r ∧ (64 ≤ sl ∨ ∃ b, r = .tag b ∧ 4096 ≤ b)) ∨
      (∃ lo hi, (k = .rsv ∧ i = .rsv p lo hi ∨ k = .rel ∧ i = .rel p lo hi) ∧ (42 ≤ lo ∨ 42 ≤ hi)) ∨
      (∃ c lo hi, k = .frel ∧ i = .frel p c lo hi ∧ (2 ≤ c ∨ 42 ≤ lo ∨ 42 ≤ hi)) ∨
      (∃ b cell, k = .assign ∧ i = .assign p b cell ∧ (4096 ≤ b ∨ ∃ n, cell = some n ∧ 3840 ≤ n)) ∨
      (∃ n, (k = .clrsus ∧ i = .clrsus p n ∨ k = .block ∧ i = .block p n ∨ k = .unblk ∧ i = .unblk p n) ∧ 3840 ≤ n) ∨
      (∃ b, (k = .quar ∧ i = .quar p b ∨ k = .unquar ∧ i = .unquar p b ∨ ∃ l, k = .setcmp ∧ i = .setcmp p b l) ∧ 4096 ≤ b) ∨
      ∃ b n a, k = .move ∧ i = .move p b n a ∧ (4096 ≤ b ∨ 3840 ≤ n ∨ 4 ≤ a)) →
    exec i s = .next (refused s p k .range none)
end

