-- ==== Sys2Proof/Laws/Bodies.lean ====
section
/-! SUPPORT. Reading what has been written: each reader of a body field takes back what the field's bytes say (R190). -/

namespace Sys2Proof.Machine

/-- A reader that gives `a` and stands at `m`, followed by another. -/
theorem reader_bind {α β : Type} {r : BodyReader α} {f : α → BodyReader β} {l m : List Byte} {a : α} (h : r l = .ok (a, m)) :
    (r >>= f) l = f a m := by
  show (r l >>= fun p => f p.1 p.2) = _
  rw [h]
  rfl

theorem readNum_cons (w : Nat) (b : Byte) (rest : List Byte) :
    readNum (w + 1) (b :: rest) = (readNum w rest).map (fun a => (b.toNat * 256 ^ w + a.1, a.2)) := by
  simp only [readNum, bind, StateT.bind, get, getThe, MonadStateOf.get, StateT.get, StateT.set, pure, StateT.pure, Except.pure,
    Except.bind]
  cases readNum w rest <;> rfl

/-- The low bytes of a number are those of its remainder. -/
theorem numBytes_mod (v w n : Nat) (h : v ≤ w) : numBytes v (n % 256 ^ w) = numBytes v n := by
  induction v with
  | zero => rfl
  | succ v ih =>
    simp only [numBytes]
    rw [ih (by omega)]
    congr 1
    apply BitVec.eq_of_toNat_eq
    simp only [BitVec.toNat_ofNat]
    have e : 256 ^ w = 256 ^ v * 256 ^ (w - v) := by rw [← pow_add]; congr 1; omega
    rw [e, Nat.mod_mul_right_div_self]
    exact Nat.mod_mod_of_dvd _ (dvd_pow_self 256 (by omega))

/-- A number that fits its field is read back, and the reader stands after it. -/
theorem readNum_bytes (w n : Nat) (rest : List Byte) (h : n < 256 ^ w) : readNum w (numBytes w n ++ rest) = .ok (n, rest) := by
  induction w generalizing n with
  | zero =>
    have : n = 0 := by simpa using h
    subst this
    rfl
  | succ w ih =>
    have h1 : n / 256 ^ w < 256 := by
      rw [Nat.div_lt_iff_lt_mul (by positivity)]
      simpa [pow_succ, mul_comm] using h
    have h2 := ih (n % 256 ^ w) (Nat.mod_lt _ (by positivity))
    rw [numBytes_mod w w n le_rfl] at h2
    show readNum (w + 1) (BitVec.ofNat 8 (n / 256 ^ w) :: (numBytes w n ++ rest)) = _
    rw [readNum_cons, h2]
    simp only [Except.map, BitVec.toNat_ofNat]
    rw [Nat.mod_eq_of_lt (by simpa using h1), mul_comm, Nat.div_add_mod]

/-- Entries that fit one byte each are read back. -/
theorem readEntries_bytes (l : List Nat) (rest : List Byte) (h : ∀ n ∈ l, n < 256) :
    readEntries l.length (l.flatMap (numBytes 1) ++ rest) = .ok (l, rest) := by
  induction l with
  | nil => rfl
  | cons a l ih =>
    simp only [List.length_cons, List.flatMap_cons, List.append_assoc]
    show (readNum 1 >>= fun e => readEntries l.length >>= fun r => pure (e :: r)) _ = _
    rw [reader_bind (readNum_bytes 1 a _ (h a (by simp))), reader_bind (ih (fun n hn => h n (by simp [hn])))]
    rfl

/-- A counted list is read back. -/
theorem readList_bytes (l : List Nat) (rest : List Byte) (h : fitsList l = true) :
    readList (listBytes l ++ rest) = .ok (l, rest) := by
  simp only [fitsList, fitsByte, Bool.and_eq_true, decide_eq_true_eq, List.all_eq_true] at h
  simp only [listBytes, List.append_assoc]
  show (readNum 1 >>= fun n => readEntries n) _ = _
  rw [reader_bind (readNum_bytes 1 _ _ (by simpa using h.1)), readEntries_bytes l rest h.2]

/-- An optional cell is read back. -/
theorem readOptCell_bytes (c : Option Nat) (rest : List Byte) (h : fitsOptCell c = true) :
    readOptCell (optCellBytes c ++ rest) = .ok (c, rest) := by
  cases c with
  | none => rfl
  | some n =>
    simp only [fitsOptCell, fitsHalf, decide_eq_true_eq] at h
    have h1 : readNum 1 (1 :: (numBytes 2 n ++ rest)) = .ok (1, numBytes 2 n ++ rest) := rfl
    show readOptCell (1 :: (numBytes 2 n ++ rest)) = _
    unfold readOptCell
    rw [reader_bind h1]
    show (readNum 2 >>= fun n => pure (some n)) _ = _
    rw [reader_bind (readNum_bytes 2 n rest (by simpa using h))]
    rfl

/-- A TAG result is read back. -/
theorem readResult_bytes (r : TagResult) (rest : List Byte) (h : r.fits = true) :
    readResult (resultBytes r ++ rest) = .ok (r, rest) := by
  cases r with
  | tag b =>
    simp only [TagResult.fits, fitsHalf, decide_eq_true_eq] at h
    have h1 : readNum 1 (0 :: (numBytes 2 b ++ rest)) = .ok (0, numBytes 2 b ++ rest) := rfl
    show readResult (0 :: (numBytes 2 b ++ rest)) = _
    unfold readResult
    rw [reader_bind h1]
    show (readNum 2 >>= fun n => pure (TagResult.tag n)) _ = _
    rw [reader_bind (readNum_bytes 2 b rest (by simpa using h))]
    rfl
  | noBin => rfl
  | unreadable => rfl

/-- A reader that takes a whole body. -/
theorem readBody_done {α : Type} {r : BodyReader α} {l : List Byte} {a : α} (h : r l = .ok (a, [])) : readBody r l = .ok a := by
  simp [readBody, h]

end Sys2Proof.Machine
end

