-- ==== Sys2Proof/Laws/State.lean ====
section
/-! SUPPORT. One lemma for each field and each record of the state under each update: what the update writes, and what it
leaves. -/

namespace Sys2Proof.Machine.State

/-! ## setBin -/

@[simp] theorem setBin_bins (s : State) (n : Nat) (r : Bin) : (s.setBin n r).bins = tableSet .cold s.bins n r := rfl
@[simp] theorem setBin_cells (s : State) (n : Nat) (r : Bin) : (s.setBin n r).cells = s.cells := rfl
@[simp] theorem setBin_bays (s : State) (n : Nat) (r : Bin) : (s.setBin n r).bays = s.bays := rfl
@[simp] theorem setBin_slots (s : State) (n : Nat) (r : Bin) : (s.setBin n r).slots = s.slots := rfl
@[simp] theorem setBin_counter (s : State) (n : Nat) (r : Bin) : (s.setBin n r).counter = s.counter := rfl
@[simp] theorem setBin_craneA (s : State) (n : Nat) (r : Bin) : (s.setBin n r).craneA = s.craneA := rfl
@[simp] theorem setBin_craneB (s : State) (n : Nat) (r : Bin) : (s.setBin n r).craneB = s.craneB := rfl
@[simp] theorem setBin_segs (s : State) (n : Nat) (r : Bin) : (s.setBin n r).segs = s.segs := rfl
@[simp] theorem setBin_sched (s : State) (n : Nat) (r : Bin) : (s.setBin n r).sched = s.sched := rfl
@[simp] theorem setBin_loops (s : State) (n : Nat) (r : Bin) : (s.setBin n r).loops = s.loops := rfl
@[simp] theorem setBin_zones (s : State) (n : Nat) (r : Bin) : (s.setBin n r).zones = s.zones := rfl
@[simp] theorem setBin_shutters (s : State) (n : Nat) (r : Bin) : (s.setBin n r).shutters = s.shutters := rfl
@[simp] theorem setBin_manualRelease (s : State) (n : Nat) (r : Bin) : (s.setBin n r).manualRelease = s.manualRelease := rfl
@[simp] theorem setBin_gens (s : State) (n : Nat) (r : Bin) : (s.setBin n r).gens = s.gens := rfl
@[simp] theorem setBin_lines (s : State) (n : Nat) (r : Bin) : (s.setBin n r).lines = s.lines := rfl
@[simp] theorem setBin_settings (s : State) (n : Nat) (r : Bin) : (s.setBin n r).settings = s.settings := rfl
@[simp] theorem setBin_portC (s : State) (n : Nat) (r : Bin) : (s.setBin n r).portC = s.portC := rfl
@[simp] theorem setBin_portA (s : State) (n : Nat) (r : Bin) : (s.setBin n r).portA = s.portA := rfl
@[simp] theorem setBin_portB (s : State) (n : Nat) (r : Bin) : (s.setBin n r).portB = s.portB := rfl
@[simp] theorem setBin_portS (s : State) (n : Nat) (r : Bin) : (s.setBin n r).portS = s.portS := rfl
@[simp] theorem setBin_power (s : State) (n : Nat) (r : Bin) : (s.setBin n r).power = s.power := rfl
@[simp] theorem setBin_coldStart (s : State) (n : Nat) (r : Bin) : (s.setBin n r).coldStart = s.coldStart := rfl
@[simp] theorem setBin_pending (s : State) (n : Nat) (r : Bin) : (s.setBin n r).pending = s.pending := rfl
@[simp] theorem setBin_cell (s : State) (n : Nat) (r : Bin) (m : Nat) :
    (s.setBin n r).cell m = s.cell m := rfl
@[simp] theorem setBin_bay (s : State) (n : Nat) (r : Bin) (st' : Station) (m : Nat) :
    (s.setBin n r).bay st' m = s.bay st' m := rfl
@[simp] theorem setBin_slot (s : State) (n : Nat) (r : Bin) (m : Nat) :
    (s.setBin n r).slot m = s.slot m := rfl
@[simp] theorem setBin_seg (s : State) (n : Nat) (r : Bin) (m : Nat) :
    (s.setBin n r).seg m = s.seg m := rfl
@[simp] theorem setBin_loop (s : State) (n : Nat) (r : Bin) (m : Nat) :
    (s.setBin n r).loop m = s.loop m := rfl
@[simp] theorem setBin_zone (s : State) (n : Nat) (r : Bin) (m : Nat) :
    (s.setBin n r).zone m = s.zone m := rfl
@[simp] theorem setBin_shutter (s : State) (n : Nat) (r : Bin) (m : Nat) :
    (s.setBin n r).shutter m = s.shutter m := rfl
@[simp] theorem setBin_gen (s : State) (n : Nat) (r : Bin) (m : Nat) :
    (s.setBin n r).gen m = s.gen m := rfl
@[simp] theorem setBin_line (s : State) (n : Nat) (r : Bin) (m : Nat) :
    (s.setBin n r).line m = s.line m := rfl
@[simp] theorem setBin_genSettings (s : State) (n : Nat) (r : Bin) (m : Nat) :
    (s.setBin n r).genSettings m = s.genSettings m := rfl
@[simp] theorem setBin_crane (s : State) (n : Nat) (r : Bin) (x : Crane) :
    (s.setBin n r).crane x = s.crane x := by cases x <;> rfl
@[simp] theorem setBin_craneSettings (s : State) (n : Nat) (r : Bin) (x : Crane) :
    (s.setBin n r).craneSettings x = s.craneSettings x := by cases x <;> rfl
@[simp] theorem setBin_schedCrane (s : State) (n : Nat) (r : Bin) (x : Crane) :
    (s.setBin n r).schedCrane x = s.schedCrane x := by cases x <;> rfl
@[simp] theorem setBin_port (s : State) (n : Nat) (r : Bin) (p' : Port) :
    (s.setBin n r).port p' = s.port p' := by cases p' <;> rfl
@[simp] theorem setBin_running (s : State) (n : Nat) (r : Bin) : (s.setBin n r).running = s.running := rfl

/-! ## setCell -/

@[simp] theorem setCell_bins (s : State) (n : Nat) (r : Cell) : (s.setCell n r).bins = s.bins := rfl
@[simp] theorem setCell_cells (s : State) (n : Nat) (r : Cell) : (s.setCell n r).cells = tableSet .cold s.cells n r := rfl
@[simp] theorem setCell_bays (s : State) (n : Nat) (r : Cell) : (s.setCell n r).bays = s.bays := rfl
@[simp] theorem setCell_slots (s : State) (n : Nat) (r : Cell) : (s.setCell n r).slots = s.slots := rfl
@[simp] theorem setCell_counter (s : State) (n : Nat) (r : Cell) : (s.setCell n r).counter = s.counter := rfl
@[simp] theorem setCell_craneA (s : State) (n : Nat) (r : Cell) : (s.setCell n r).craneA = s.craneA := rfl
@[simp] theorem setCell_craneB (s : State) (n : Nat) (r : Cell) : (s.setCell n r).craneB = s.craneB := rfl
@[simp] theorem setCell_segs (s : State) (n : Nat) (r : Cell) : (s.setCell n r).segs = s.segs := rfl
@[simp] theorem setCell_sched (s : State) (n : Nat) (r : Cell) : (s.setCell n r).sched = s.sched := rfl
@[simp] theorem setCell_loops (s : State) (n : Nat) (r : Cell) : (s.setCell n r).loops = s.loops := rfl
@[simp] theorem setCell_zones (s : State) (n : Nat) (r : Cell) : (s.setCell n r).zones = s.zones := rfl
@[simp] theorem setCell_shutters (s : State) (n : Nat) (r : Cell) : (s.setCell n r).shutters = s.shutters := rfl
@[simp] theorem setCell_manualRelease (s : State) (n : Nat) (r : Cell) : (s.setCell n r).manualRelease = s.manualRelease := rfl
@[simp] theorem setCell_gens (s : State) (n : Nat) (r : Cell) : (s.setCell n r).gens = s.gens := rfl
@[simp] theorem setCell_lines (s : State) (n : Nat) (r : Cell) : (s.setCell n r).lines = s.lines := rfl
@[simp] theorem setCell_settings (s : State) (n : Nat) (r : Cell) : (s.setCell n r).settings = s.settings := rfl
@[simp] theorem setCell_portC (s : State) (n : Nat) (r : Cell) : (s.setCell n r).portC = s.portC := rfl
@[simp] theorem setCell_portA (s : State) (n : Nat) (r : Cell) : (s.setCell n r).portA = s.portA := rfl
@[simp] theorem setCell_portB (s : State) (n : Nat) (r : Cell) : (s.setCell n r).portB = s.portB := rfl
@[simp] theorem setCell_portS (s : State) (n : Nat) (r : Cell) : (s.setCell n r).portS = s.portS := rfl
@[simp] theorem setCell_power (s : State) (n : Nat) (r : Cell) : (s.setCell n r).power = s.power := rfl
@[simp] theorem setCell_coldStart (s : State) (n : Nat) (r : Cell) : (s.setCell n r).coldStart = s.coldStart := rfl
@[simp] theorem setCell_pending (s : State) (n : Nat) (r : Cell) : (s.setCell n r).pending = s.pending := rfl
@[simp] theorem setCell_bin (s : State) (n : Nat) (r : Cell) (m : Nat) :
    (s.setCell n r).bin m = s.bin m := rfl
@[simp] theorem setCell_bay (s : State) (n : Nat) (r : Cell) (st' : Station) (m : Nat) :
    (s.setCell n r).bay st' m = s.bay st' m := rfl
@[simp] theorem setCell_slot (s : State) (n : Nat) (r : Cell) (m : Nat) :
    (s.setCell n r).slot m = s.slot m := rfl
@[simp] theorem setCell_seg (s : State) (n : Nat) (r : Cell) (m : Nat) :
    (s.setCell n r).seg m = s.seg m := rfl
@[simp] theorem setCell_loop (s : State) (n : Nat) (r : Cell) (m : Nat) :
    (s.setCell n r).loop m = s.loop m := rfl
@[simp] theorem setCell_zone (s : State) (n : Nat) (r : Cell) (m : Nat) :
    (s.setCell n r).zone m = s.zone m := rfl
@[simp] theorem setCell_shutter (s : State) (n : Nat) (r : Cell) (m : Nat) :
    (s.setCell n r).shutter m = s.shutter m := rfl
@[simp] theorem setCell_gen (s : State) (n : Nat) (r : Cell) (m : Nat) :
    (s.setCell n r).gen m = s.gen m := rfl
@[simp] theorem setCell_line (s : State) (n : Nat) (r : Cell) (m : Nat) :
    (s.setCell n r).line m = s.line m := rfl
@[simp] theorem setCell_genSettings (s : State) (n : Nat) (r : Cell) (m : Nat) :
    (s.setCell n r).genSettings m = s.genSettings m := rfl
@[simp] theorem setCell_crane (s : State) (n : Nat) (r : Cell) (x : Crane) :
    (s.setCell n r).crane x = s.crane x := by cases x <;> rfl
@[simp] theorem setCell_craneSettings (s : State) (n : Nat) (r : Cell) (x : Crane) :
    (s.setCell n r).craneSettings x = s.craneSettings x := by cases x <;> rfl
@[simp] theorem setCell_schedCrane (s : State) (n : Nat) (r : Cell) (x : Crane) :
    (s.setCell n r).schedCrane x = s.schedCrane x := by cases x <;> rfl
@[simp] theorem setCell_port (s : State) (n : Nat) (r : Cell) (p' : Port) :
    (s.setCell n r).port p' = s.port p' := by cases p' <;> rfl
@[simp] theorem setCell_running (s : State) (n : Nat) (r : Cell) : (s.setCell n r).running = s.running := rfl

/-! ## setBay -/

@[simp] theorem setBay_bins (s : State) (st : Station) (b : Nat) (r : Bay) : (s.setBay st b r).bins = s.bins := rfl
@[simp] theorem setBay_cells (s : State) (st : Station) (b : Nat) (r : Bay) : (s.setBay st b r).cells = s.cells := rfl
@[simp] theorem setBay_bays (s : State) (st : Station) (b : Nat) (r : Bay) : (s.setBay st b r).bays = tableSet .cold s.bays (bayIndex st b) r := rfl
@[simp] theorem setBay_slots (s : State) (st : Station) (b : Nat) (r : Bay) : (s.setBay st b r).slots = s.slots := rfl
@[simp] theorem setBay_counter (s : State) (st : Station) (b : Nat) (r : Bay) : (s.setBay st b r).counter = s.counter := rfl
@[simp] theorem setBay_craneA (s : State) (st : Station) (b : Nat) (r : Bay) : (s.setBay st b r).craneA = s.craneA := rfl
@[simp] theorem setBay_craneB (s : State) (st : Station) (b : Nat) (r : Bay) : (s.setBay st b r).craneB = s.craneB := rfl
@[simp] theorem setBay_segs (s : State) (st : Station) (b : Nat) (r : Bay) : (s.setBay st b r).segs = s.segs := rfl
@[simp] theorem setBay_sched (s : State) (st : Station) (b : Nat) (r : Bay) : (s.setBay st b r).sched = s.sched := rfl
@[simp] theorem setBay_loops (s : State) (st : Station) (b : Nat) (r : Bay) : (s.setBay st b r).loops = s.loops := rfl
@[simp] theorem setBay_zones (s : State) (st : Station) (b : Nat) (r : Bay) : (s.setBay st b r).zones = s.zones := rfl
@[simp] theorem setBay_shutters (s : State) (st : Station) (b : Nat) (r : Bay) : (s.setBay st b r).shutters = s.shutters := rfl
@[simp] theorem setBay_manualRelease (s : State) (st : Station) (b : Nat) (r : Bay) : (s.setBay st b r).manualRelease = s.manualRelease := rfl
@[simp] theorem setBay_gens (s : State) (st : Station) (b : Nat) (r : Bay) : (s.setBay st b r).gens = s.gens := rfl
@[simp] theorem setBay_lines (s : State) (st : Station) (b : Nat) (r : Bay) : (s.setBay st b r).lines = s.lines := rfl
@[simp] theorem setBay_settings (s : State) (st : Station) (b : Nat) (r : Bay) : (s.setBay st b r).settings = s.settings := rfl
@[simp] theorem setBay_portC (s : State) (st : Station) (b : Nat) (r : Bay) : (s.setBay st b r).portC = s.portC := rfl
@[simp] theorem setBay_portA (s : State) (st : Station) (b : Nat) (r : Bay) : (s.setBay st b r).portA = s.portA := rfl
@[simp] theorem setBay_portB (s : State) (st : Station) (b : Nat) (r : Bay) : (s.setBay st b r).portB = s.portB := rfl
@[simp] theorem setBay_portS (s : State) (st : Station) (b : Nat) (r : Bay) : (s.setBay st b r).portS = s.portS := rfl
@[simp] theorem setBay_power (s : State) (st : Station) (b : Nat) (r : Bay) : (s.setBay st b r).power = s.power := rfl
@[simp] theorem setBay_coldStart (s : State) (st : Station) (b : Nat) (r : Bay) : (s.setBay st b r).coldStart = s.coldStart := rfl
@[simp] theorem setBay_pending (s : State) (st : Station) (b : Nat) (r : Bay) : (s.setBay st b r).pending = s.pending := rfl
@[simp] theorem setBay_bin (s : State) (st : Station) (b : Nat) (r : Bay) (m : Nat) :
    (s.setBay st b r).bin m = s.bin m := rfl
@[simp] theorem setBay_cell (s : State) (st : Station) (b : Nat) (r : Bay) (m : Nat) :
    (s.setBay st b r).cell m = s.cell m := rfl
@[simp] theorem setBay_slot (s : State) (st : Station) (b : Nat) (r : Bay) (m : Nat) :
    (s.setBay st b r).slot m = s.slot m := rfl
@[simp] theorem setBay_seg (s : State) (st : Station) (b : Nat) (r : Bay) (m : Nat) :
    (s.setBay st b r).seg m = s.seg m := rfl
@[simp] theorem setBay_loop (s : State) (st : Station) (b : Nat) (r : Bay) (m : Nat) :
    (s.setBay st b r).loop m = s.loop m := rfl
@[simp] theorem setBay_zone (s : State) (st : Station) (b : Nat) (r : Bay) (m : Nat) :
    (s.setBay st b r).zone m = s.zone m := rfl
@[simp] theorem setBay_shutter (s : State) (st : Station) (b : Nat) (r : Bay) (m : Nat) :
    (s.setBay st b r).shutter m = s.shutter m := rfl
@[simp] theorem setBay_gen (s : State) (st : Station) (b : Nat) (r : Bay) (m : Nat) :
    (s.setBay st b r).gen m = s.gen m := rfl
@[simp] theorem setBay_line (s : State) (st : Station) (b : Nat) (r : Bay) (m : Nat) :
    (s.setBay st b r).line m = s.line m := rfl
@[simp] theorem setBay_genSettings (s : State) (st : Station) (b : Nat) (r : Bay) (m : Nat) :
    (s.setBay st b r).genSettings m = s.genSettings m := rfl
@[simp] theorem setBay_crane (s : State) (st : Station) (b : Nat) (r : Bay) (x : Crane) :
    (s.setBay st b r).crane x = s.crane x := by cases x <;> rfl
@[simp] theorem setBay_craneSettings (s : State) (st : Station) (b : Nat) (r : Bay) (x : Crane) :
    (s.setBay st b r).craneSettings x = s.craneSettings x := by cases x <;> rfl
@[simp] theorem setBay_schedCrane (s : State) (st : Station) (b : Nat) (r : Bay) (x : Crane) :
    (s.setBay st b r).schedCrane x = s.schedCrane x := by cases x <;> rfl
@[simp] theorem setBay_port (s : State) (st : Station) (b : Nat) (r : Bay) (p' : Port) :
    (s.setBay st b r).port p' = s.port p' := by cases p' <;> rfl
@[simp] theorem setBay_running (s : State) (st : Station) (b : Nat) (r : Bay) : (s.setBay st b r).running = s.running := rfl

/-! ## setSlot -/

@[simp] theorem setSlot_bins (s : State) (i : Nat) (r : Slot) : (s.setSlot i r).bins = s.bins := rfl
@[simp] theorem setSlot_cells (s : State) (i : Nat) (r : Slot) : (s.setSlot i r).cells = s.cells := rfl
@[simp] theorem setSlot_bays (s : State) (i : Nat) (r : Slot) : (s.setSlot i r).bays = s.bays := rfl
@[simp] theorem setSlot_slots (s : State) (i : Nat) (r : Slot) : (s.setSlot i r).slots = tableSet .cold s.slots i r := rfl
@[simp] theorem setSlot_counter (s : State) (i : Nat) (r : Slot) : (s.setSlot i r).counter = s.counter := rfl
@[simp] theorem setSlot_craneA (s : State) (i : Nat) (r : Slot) : (s.setSlot i r).craneA = s.craneA := rfl
@[simp] theorem setSlot_craneB (s : State) (i : Nat) (r : Slot) : (s.setSlot i r).craneB = s.craneB := rfl
@[simp] theorem setSlot_segs (s : State) (i : Nat) (r : Slot) : (s.setSlot i r).segs = s.segs := rfl
@[simp] theorem setSlot_sched (s : State) (i : Nat) (r : Slot) : (s.setSlot i r).sched = s.sched := rfl
@[simp] theorem setSlot_loops (s : State) (i : Nat) (r : Slot) : (s.setSlot i r).loops = s.loops := rfl
@[simp] theorem setSlot_zones (s : State) (i : Nat) (r : Slot) : (s.setSlot i r).zones = s.zones := rfl
@[simp] theorem setSlot_shutters (s : State) (i : Nat) (r : Slot) : (s.setSlot i r).shutters = s.shutters := rfl
@[simp] theorem setSlot_manualRelease (s : State) (i : Nat) (r : Slot) : (s.setSlot i r).manualRelease = s.manualRelease := rfl
@[simp] theorem setSlot_gens (s : State) (i : Nat) (r : Slot) : (s.setSlot i r).gens = s.gens := rfl
@[simp] theorem setSlot_lines (s : State) (i : Nat) (r : Slot) : (s.setSlot i r).lines = s.lines := rfl
@[simp] theorem setSlot_settings (s : State) (i : Nat) (r : Slot) : (s.setSlot i r).settings = s.settings := rfl
@[simp] theorem setSlot_portC (s : State) (i : Nat) (r : Slot) : (s.setSlot i r).portC = s.portC := rfl
@[simp] theorem setSlot_portA (s : State) (i : Nat) (r : Slot) : (s.setSlot i r).portA = s.portA := rfl
@[simp] theorem setSlot_portB (s : State) (i : Nat) (r : Slot) : (s.setSlot i r).portB = s.portB := rfl
@[simp] theorem setSlot_portS (s : State) (i : Nat) (r : Slot) : (s.setSlot i r).portS = s.portS := rfl
@[simp] theorem setSlot_power (s : State) (i : Nat) (r : Slot) : (s.setSlot i r).power = s.power := rfl
@[simp] theorem setSlot_coldStart (s : State) (i : Nat) (r : Slot) : (s.setSlot i r).coldStart = s.coldStart := rfl
@[simp] theorem setSlot_pending (s : State) (i : Nat) (r : Slot) : (s.setSlot i r).pending = s.pending := rfl
@[simp] theorem setSlot_bin (s : State) (i : Nat) (r : Slot) (m : Nat) :
    (s.setSlot i r).bin m = s.bin m := rfl
@[simp] theorem setSlot_cell (s : State) (i : Nat) (r : Slot) (m : Nat) :
    (s.setSlot i r).cell m = s.cell m := rfl
@[simp] theorem setSlot_bay (s : State) (i : Nat) (r : Slot) (st' : Station) (m : Nat) :
    (s.setSlot i r).bay st' m = s.bay st' m := rfl
@[simp] theorem setSlot_seg (s : State) (i : Nat) (r : Slot) (m : Nat) :
    (s.setSlot i r).seg m = s.seg m := rfl
@[simp] theorem setSlot_loop (s : State) (i : Nat) (r : Slot) (m : Nat) :
    (s.setSlot i r).loop m = s.loop m := rfl
@[simp] theorem setSlot_zone (s : State) (i : Nat) (r : Slot) (m : Nat) :
    (s.setSlot i r).zone m = s.zone m := rfl
@[simp] theorem setSlot_shutter (s : State) (i : Nat) (r : Slot) (m : Nat) :
    (s.setSlot i r).shutter m = s.shutter m := rfl
@[simp] theorem setSlot_gen (s : State) (i : Nat) (r : Slot) (m : Nat) :
    (s.setSlot i r).gen m = s.gen m := rfl
@[simp] theorem setSlot_line (s : State) (i : Nat) (r : Slot) (m : Nat) :
    (s.setSlot i r).line m = s.line m := rfl
@[simp] theorem setSlot_genSettings (s : State) (i : Nat) (r : Slot) (m : Nat) :
    (s.setSlot i r).genSettings m = s.genSettings m := rfl
@[simp] theorem setSlot_crane (s : State) (i : Nat) (r : Slot) (x : Crane) :
    (s.setSlot i r).crane x = s.crane x := by cases x <;> rfl
@[simp] theorem setSlot_craneSettings (s : State) (i : Nat) (r : Slot) (x : Crane) :
    (s.setSlot i r).craneSettings x = s.craneSettings x := by cases x <;> rfl
@[simp] theorem setSlot_schedCrane (s : State) (i : Nat) (r : Slot) (x : Crane) :
    (s.setSlot i r).schedCrane x = s.schedCrane x := by cases x <;> rfl
@[simp] theorem setSlot_port (s : State) (i : Nat) (r : Slot) (p' : Port) :
    (s.setSlot i r).port p' = s.port p' := by cases p' <;> rfl
@[simp] theorem setSlot_running (s : State) (i : Nat) (r : Slot) : (s.setSlot i r).running = s.running := rfl

/-! ## setCounter -/

@[simp] theorem setCounter_bins (s : State) (n : BitVec 32) : (s.setCounter n).bins = s.bins := rfl
@[simp] theorem setCounter_cells (s : State) (n : BitVec 32) : (s.setCounter n).cells = s.cells := rfl
@[simp] theorem setCounter_bays (s : State) (n : BitVec 32) : (s.setCounter n).bays = s.bays := rfl
@[simp] theorem setCounter_slots (s : State) (n : BitVec 32) : (s.setCounter n).slots = s.slots := rfl
@[simp] theorem setCounter_counter (s : State) (n : BitVec 32) : (s.setCounter n).counter = n := rfl
@[simp] theorem setCounter_craneA (s : State) (n : BitVec 32) : (s.setCounter n).craneA = s.craneA := rfl
@[simp] theorem setCounter_craneB (s : State) (n : BitVec 32) : (s.setCounter n).craneB = s.craneB := rfl
@[simp] theorem setCounter_segs (s : State) (n : BitVec 32) : (s.setCounter n).segs = s.segs := rfl
@[simp] theorem setCounter_sched (s : State) (n : BitVec 32) : (s.setCounter n).sched = s.sched := rfl
@[simp] theorem setCounter_loops (s : State) (n : BitVec 32) : (s.setCounter n).loops = s.loops := rfl
@[simp] theorem setCounter_zones (s : State) (n : BitVec 32) : (s.setCounter n).zones = s.zones := rfl
@[simp] theorem setCounter_shutters (s : State) (n : BitVec 32) : (s.setCounter n).shutters = s.shutters := rfl
@[simp] theorem setCounter_manualRelease (s : State) (n : BitVec 32) : (s.setCounter n).manualRelease = s.manualRelease := rfl
@[simp] theorem setCounter_gens (s : State) (n : BitVec 32) : (s.setCounter n).gens = s.gens := rfl
@[simp] theorem setCounter_lines (s : State) (n : BitVec 32) : (s.setCounter n).lines = s.lines := rfl
@[simp] theorem setCounter_settings (s : State) (n : BitVec 32) : (s.setCounter n).settings = s.settings := rfl
@[simp] theorem setCounter_portC (s : State) (n : BitVec 32) : (s.setCounter n).portC = s.portC := rfl
@[simp] theorem setCounter_portA (s : State) (n : BitVec 32) : (s.setCounter n).portA = s.portA := rfl
@[simp] theorem setCounter_portB (s : State) (n : BitVec 32) : (s.setCounter n).portB = s.portB := rfl
@[simp] theorem setCounter_portS (s : State) (n : BitVec 32) : (s.setCounter n).portS = s.portS := rfl
@[simp] theorem setCounter_power (s : State) (n : BitVec 32) : (s.setCounter n).power = s.power := rfl
@[simp] theorem setCounter_coldStart (s : State) (n : BitVec 32) : (s.setCounter n).coldStart = s.coldStart := rfl
@[simp] theorem setCounter_pending (s : State) (n : BitVec 32) : (s.setCounter n).pending = s.pending := rfl
@[simp] theorem setCounter_bin (s : State) (n : BitVec 32) (m : Nat) :
    (s.setCounter n).bin m = s.bin m := rfl
@[simp] theorem setCounter_cell (s : State) (n : BitVec 32) (m : Nat) :
    (s.setCounter n).cell m = s.cell m := rfl
@[simp] theorem setCounter_bay (s : State) (n : BitVec 32) (st' : Station) (m : Nat) :
    (s.setCounter n).bay st' m = s.bay st' m := rfl
@[simp] theorem setCounter_slot (s : State) (n : BitVec 32) (m : Nat) :
    (s.setCounter n).slot m = s.slot m := rfl
@[simp] theorem setCounter_seg (s : State) (n : BitVec 32) (m : Nat) :
    (s.setCounter n).seg m = s.seg m := rfl
@[simp] theorem setCounter_loop (s : State) (n : BitVec 32) (m : Nat) :
    (s.setCounter n).loop m = s.loop m := rfl
@[simp] theorem setCounter_zone (s : State) (n : BitVec 32) (m : Nat) :
    (s.setCounter n).zone m = s.zone m := rfl
@[simp] theorem setCounter_shutter (s : State) (n : BitVec 32) (m : Nat) :
    (s.setCounter n).shutter m = s.shutter m := rfl
@[simp] theorem setCounter_gen (s : State) (n : BitVec 32) (m : Nat) :
    (s.setCounter n).gen m = s.gen m := rfl
@[simp] theorem setCounter_line (s : State) (n : BitVec 32) (m : Nat) :
    (s.setCounter n).line m = s.line m := rfl
@[simp] theorem setCounter_genSettings (s : State) (n : BitVec 32) (m : Nat) :
    (s.setCounter n).genSettings m = s.genSettings m := rfl
@[simp] theorem setCounter_crane (s : State) (n : BitVec 32) (x : Crane) :
    (s.setCounter n).crane x = s.crane x := by cases x <;> rfl
@[simp] theorem setCounter_craneSettings (s : State) (n : BitVec 32) (x : Crane) :
    (s.setCounter n).craneSettings x = s.craneSettings x := by cases x <;> rfl
@[simp] theorem setCounter_schedCrane (s : State) (n : BitVec 32) (x : Crane) :
    (s.setCounter n).schedCrane x = s.schedCrane x := by cases x <;> rfl
@[simp] theorem setCounter_port (s : State) (n : BitVec 32) (p' : Port) :
    (s.setCounter n).port p' = s.port p' := by cases p' <;> rfl
@[simp] theorem setCounter_running (s : State) (n : BitVec 32) : (s.setCounter n).running = s.running := rfl

/-! ## setSeg -/

@[simp] theorem setSeg_bins (s : State) (n : Nat) (r : Segment) : (s.setSeg n r).bins = s.bins := rfl
@[simp] theorem setSeg_cells (s : State) (n : Nat) (r : Segment) : (s.setSeg n r).cells = s.cells := rfl
@[simp] theorem setSeg_bays (s : State) (n : Nat) (r : Segment) : (s.setSeg n r).bays = s.bays := rfl
@[simp] theorem setSeg_slots (s : State) (n : Nat) (r : Segment) : (s.setSeg n r).slots = s.slots := rfl
@[simp] theorem setSeg_counter (s : State) (n : Nat) (r : Segment) : (s.setSeg n r).counter = s.counter := rfl
@[simp] theorem setSeg_craneA (s : State) (n : Nat) (r : Segment) : (s.setSeg n r).craneA = s.craneA := rfl
@[simp] theorem setSeg_craneB (s : State) (n : Nat) (r : Segment) : (s.setSeg n r).craneB = s.craneB := rfl
@[simp] theorem setSeg_segs (s : State) (n : Nat) (r : Segment) : (s.setSeg n r).segs = tableSet .cold s.segs n r := rfl
@[simp] theorem setSeg_sched (s : State) (n : Nat) (r : Segment) : (s.setSeg n r).sched = s.sched := rfl
@[simp] theorem setSeg_loops (s : State) (n : Nat) (r : Segment) : (s.setSeg n r).loops = s.loops := rfl
@[simp] theorem setSeg_zones (s : State) (n : Nat) (r : Segment) : (s.setSeg n r).zones = s.zones := rfl
@[simp] theorem setSeg_shutters (s : State) (n : Nat) (r : Segment) : (s.setSeg n r).shutters = s.shutters := rfl
@[simp] theorem setSeg_manualRelease (s : State) (n : Nat) (r : Segment) : (s.setSeg n r).manualRelease = s.manualRelease := rfl
@[simp] theorem setSeg_gens (s : State) (n : Nat) (r : Segment) : (s.setSeg n r).gens = s.gens := rfl
@[simp] theorem setSeg_lines (s : State) (n : Nat) (r : Segment) : (s.setSeg n r).lines = s.lines := rfl
@[simp] theorem setSeg_settings (s : State) (n : Nat) (r : Segment) : (s.setSeg n r).settings = s.settings := rfl
@[simp] theorem setSeg_portC (s : State) (n : Nat) (r : Segment) : (s.setSeg n r).portC = s.portC := rfl
@[simp] theorem setSeg_portA (s : State) (n : Nat) (r : Segment) : (s.setSeg n r).portA = s.portA := rfl
@[simp] theorem setSeg_portB (s : State) (n : Nat) (r : Segment) : (s.setSeg n r).portB = s.portB := rfl
@[simp] theorem setSeg_portS (s : State) (n : Nat) (r : Segment) : (s.setSeg n r).portS = s.portS := rfl
@[simp] theorem setSeg_power (s : State) (n : Nat) (r : Segment) : (s.setSeg n r).power = s.power := rfl
@[simp] theorem setSeg_coldStart (s : State) (n : Nat) (r : Segment) : (s.setSeg n r).coldStart = s.coldStart := rfl
@[simp] theorem setSeg_pending (s : State) (n : Nat) (r : Segment) : (s.setSeg n r).pending = s.pending := rfl
@[simp] theorem setSeg_bin (s : State) (n : Nat) (r : Segment) (m : Nat) :
    (s.setSeg n r).bin m = s.bin m := rfl
@[simp] theorem setSeg_cell (s : State) (n : Nat) (r : Segment) (m : Nat) :
    (s.setSeg n r).cell m = s.cell m := rfl
@[simp] theorem setSeg_bay (s : State) (n : Nat) (r : Segment) (st' : Station) (m : Nat) :
    (s.setSeg n r).bay st' m = s.bay st' m := rfl
@[simp] theorem setSeg_slot (s : State) (n : Nat) (r : Segment) (m : Nat) :
    (s.setSeg n r).slot m = s.slot m := rfl
@[simp] theorem setSeg_loop (s : State) (n : Nat) (r : Segment) (m : Nat) :
    (s.setSeg n r).loop m = s.loop m := rfl
@[simp] theorem setSeg_zone (s : State) (n : Nat) (r : Segment) (m : Nat) :
    (s.setSeg n r).zone m = s.zone m := rfl
@[simp] theorem setSeg_shutter (s : State) (n : Nat) (r : Segment) (m : Nat) :
    (s.setSeg n r).shutter m = s.shutter m := rfl
@[simp] theorem setSeg_gen (s : State) (n : Nat) (r : Segment) (m : Nat) :
    (s.setSeg n r).gen m = s.gen m := rfl
@[simp] theorem setSeg_line (s : State) (n : Nat) (r : Segment) (m : Nat) :
    (s.setSeg n r).line m = s.line m := rfl
@[simp] theorem setSeg_genSettings (s : State) (n : Nat) (r : Segment) (m : Nat) :
    (s.setSeg n r).genSettings m = s.genSettings m := rfl
@[simp] theorem setSeg_crane (s : State) (n : Nat) (r : Segment) (x : Crane) :
    (s.setSeg n r).crane x = s.crane x := by cases x <;> rfl
@[simp] theorem setSeg_craneSettings (s : State) (n : Nat) (r : Segment) (x : Crane) :
    (s.setSeg n r).craneSettings x = s.craneSettings x := by cases x <;> rfl
@[simp] theorem setSeg_schedCrane (s : State) (n : Nat) (r : Segment) (x : Crane) :
    (s.setSeg n r).schedCrane x = s.schedCrane x := by cases x <;> rfl
@[simp] theorem setSeg_port (s : State) (n : Nat) (r : Segment) (p' : Port) :
    (s.setSeg n r).port p' = s.port p' := by cases p' <;> rfl
@[simp] theorem setSeg_running (s : State) (n : Nat) (r : Segment) : (s.setSeg n r).running = s.running := rfl

/-! ## setSched -/

@[simp] theorem setSched_bins (s : State) (r : Scheduler) : (s.setSched r).bins = s.bins := rfl
@[simp] theorem setSched_cells (s : State) (r : Scheduler) : (s.setSched r).cells = s.cells := rfl
@[simp] theorem setSched_bays (s : State) (r : Scheduler) : (s.setSched r).bays = s.bays := rfl
@[simp] theorem setSched_slots (s : State) (r : Scheduler) : (s.setSched r).slots = s.slots := rfl
@[simp] theorem setSched_counter (s : State) (r : Scheduler) : (s.setSched r).counter = s.counter := rfl
@[simp] theorem setSched_craneA (s : State) (r : Scheduler) : (s.setSched r).craneA = s.craneA := rfl
@[simp] theorem setSched_craneB (s : State) (r : Scheduler) : (s.setSched r).craneB = s.craneB := rfl
@[simp] theorem setSched_segs (s : State) (r : Scheduler) : (s.setSched r).segs = s.segs := rfl
@[simp] theorem setSched_sched (s : State) (r : Scheduler) : (s.setSched r).sched = r := rfl
@[simp] theorem setSched_loops (s : State) (r : Scheduler) : (s.setSched r).loops = s.loops := rfl
@[simp] theorem setSched_zones (s : State) (r : Scheduler) : (s.setSched r).zones = s.zones := rfl
@[simp] theorem setSched_shutters (s : State) (r : Scheduler) : (s.setSched r).shutters = s.shutters := rfl
@[simp] theorem setSched_manualRelease (s : State) (r : Scheduler) : (s.setSched r).manualRelease = s.manualRelease := rfl
@[simp] theorem setSched_gens (s : State) (r : Scheduler) : (s.setSched r).gens = s.gens := rfl
@[simp] theorem setSched_lines (s : State) (r : Scheduler) : (s.setSched r).lines = s.lines := rfl
@[simp] theorem setSched_settings (s : State) (r : Scheduler) : (s.setSched r).settings = s.settings := rfl
@[simp] theorem setSched_portC (s : State) (r : Scheduler) : (s.setSched r).portC = s.portC := rfl
@[simp] theorem setSched_portA (s : State) (r : Scheduler) : (s.setSched r).portA = s.portA := rfl
@[simp] theorem setSched_portB (s : State) (r : Scheduler) : (s.setSched r).portB = s.portB := rfl
@[simp] theorem setSched_portS (s : State) (r : Scheduler) : (s.setSched r).portS = s.portS := rfl
@[simp] theorem setSched_power (s : State) (r : Scheduler) : (s.setSched r).power = s.power := rfl
@[simp] theorem setSched_coldStart (s : State) (r : Scheduler) : (s.setSched r).coldStart = s.coldStart := rfl
@[simp] theorem setSched_pending (s : State) (r : Scheduler) : (s.setSched r).pending = s.pending := rfl
@[simp] theorem setSched_bin (s : State) (r : Scheduler) (m : Nat) :
    (s.setSched r).bin m = s.bin m := rfl
@[simp] theorem setSched_cell (s : State) (r : Scheduler) (m : Nat) :
    (s.setSched r).cell m = s.cell m := rfl
@[simp] theorem setSched_bay (s : State) (r : Scheduler) (st' : Station) (m : Nat) :
    (s.setSched r).bay st' m = s.bay st' m := rfl
@[simp] theorem setSched_slot (s : State) (r : Scheduler) (m : Nat) :
    (s.setSched r).slot m = s.slot m := rfl
@[simp] theorem setSched_seg (s : State) (r : Scheduler) (m : Nat) :
    (s.setSched r).seg m = s.seg m := rfl
@[simp] theorem setSched_loop (s : State) (r : Scheduler) (m : Nat) :
    (s.setSched r).loop m = s.loop m := rfl
@[simp] theorem setSched_zone (s : State) (r : Scheduler) (m : Nat) :
    (s.setSched r).zone m = s.zone m := rfl
@[simp] theorem setSched_shutter (s : State) (r : Scheduler) (m : Nat) :
    (s.setSched r).shutter m = s.shutter m := rfl
@[simp] theorem setSched_gen (s : State) (r : Scheduler) (m : Nat) :
    (s.setSched r).gen m = s.gen m := rfl
@[simp] theorem setSched_line (s : State) (r : Scheduler) (m : Nat) :
    (s.setSched r).line m = s.line m := rfl
@[simp] theorem setSched_genSettings (s : State) (r : Scheduler) (m : Nat) :
    (s.setSched r).genSettings m = s.genSettings m := rfl
@[simp] theorem setSched_crane (s : State) (r : Scheduler) (x : Crane) :
    (s.setSched r).crane x = s.crane x := by cases x <;> rfl
@[simp] theorem setSched_craneSettings (s : State) (r : Scheduler) (x : Crane) :
    (s.setSched r).craneSettings x = s.craneSettings x := by cases x <;> rfl
@[simp] theorem setSched_port (s : State) (r : Scheduler) (p' : Port) :
    (s.setSched r).port p' = s.port p' := by cases p' <;> rfl
@[simp] theorem setSched_running (s : State) (r : Scheduler) : (s.setSched r).running = s.running := rfl

/-! ## setLoop -/

@[simp] theorem setLoop_bins (s : State) (z : Nat) (r : Loop) : (s.setLoop z r).bins = s.bins := rfl
@[simp] theorem setLoop_cells (s : State) (z : Nat) (r : Loop) : (s.setLoop z r).cells = s.cells := rfl
@[simp] theorem setLoop_bays (s : State) (z : Nat) (r : Loop) : (s.setLoop z r).bays = s.bays := rfl
@[simp] theorem setLoop_slots (s : State) (z : Nat) (r : Loop) : (s.setLoop z r).slots = s.slots := rfl
@[simp] theorem setLoop_counter (s : State) (z : Nat) (r : Loop) : (s.setLoop z r).counter = s.counter := rfl
@[simp] theorem setLoop_craneA (s : State) (z : Nat) (r : Loop) : (s.setLoop z r).craneA = s.craneA := rfl
@[simp] theorem setLoop_craneB (s : State) (z : Nat) (r : Loop) : (s.setLoop z r).craneB = s.craneB := rfl
@[simp] theorem setLoop_segs (s : State) (z : Nat) (r : Loop) : (s.setLoop z r).segs = s.segs := rfl
@[simp] theorem setLoop_sched (s : State) (z : Nat) (r : Loop) : (s.setLoop z r).sched = s.sched := rfl
@[simp] theorem setLoop_loops (s : State) (z : Nat) (r : Loop) : (s.setLoop z r).loops = tableSet .cold s.loops z r := rfl
@[simp] theorem setLoop_zones (s : State) (z : Nat) (r : Loop) : (s.setLoop z r).zones = s.zones := rfl
@[simp] theorem setLoop_shutters (s : State) (z : Nat) (r : Loop) : (s.setLoop z r).shutters = s.shutters := rfl
@[simp] theorem setLoop_manualRelease (s : State) (z : Nat) (r : Loop) : (s.setLoop z r).manualRelease = s.manualRelease := rfl
@[simp] theorem setLoop_gens (s : State) (z : Nat) (r : Loop) : (s.setLoop z r).gens = s.gens := rfl
@[simp] theorem setLoop_lines (s : State) (z : Nat) (r : Loop) : (s.setLoop z r).lines = s.lines := rfl
@[simp] theorem setLoop_settings (s : State) (z : Nat) (r : Loop) : (s.setLoop z r).settings = s.settings := rfl
@[simp] theorem setLoop_portC (s : State) (z : Nat) (r : Loop) : (s.setLoop z r).portC = s.portC := rfl
@[simp] theorem setLoop_portA (s : State) (z : Nat) (r : Loop) : (s.setLoop z r).portA = s.portA := rfl
@[simp] theorem setLoop_portB (s : State) (z : Nat) (r : Loop) : (s.setLoop z r).portB = s.portB := rfl
@[simp] theorem setLoop_portS (s : State) (z : Nat) (r : Loop) : (s.setLoop z r).portS = s.portS := rfl
@[simp] theorem setLoop_power (s : State) (z : Nat) (r : Loop) : (s.setLoop z r).power = s.power := rfl
@[simp] theorem setLoop_coldStart (s : State) (z : Nat) (r : Loop) : (s.setLoop z r).coldStart = s.coldStart := rfl
@[simp] theorem setLoop_pending (s : State) (z : Nat) (r : Loop) : (s.setLoop z r).pending = s.pending := rfl
@[simp] theorem setLoop_bin (s : State) (z : Nat) (r : Loop) (m : Nat) :
    (s.setLoop z r).bin m = s.bin m := rfl
@[simp] theorem setLoop_cell (s : State) (z : Nat) (r : Loop) (m : Nat) :
    (s.setLoop z r).cell m = s.cell m := rfl
@[simp] theorem setLoop_bay (s : State) (z : Nat) (r : Loop) (st' : Station) (m : Nat) :
    (s.setLoop z r).bay st' m = s.bay st' m := rfl
@[simp] theorem setLoop_slot (s : State) (z : Nat) (r : Loop) (m : Nat) :
    (s.setLoop z r).slot m = s.slot m := rfl
@[simp] theorem setLoop_seg (s : State) (z : Nat) (r : Loop) (m : Nat) :
    (s.setLoop z r).seg m = s.seg m := rfl
@[simp] theorem setLoop_zone (s : State) (z : Nat) (r : Loop) (m : Nat) :
    (s.setLoop z r).zone m = s.zone m := rfl
@[simp] theorem setLoop_shutter (s : State) (z : Nat) (r : Loop) (m : Nat) :
    (s.setLoop z r).shutter m = s.shutter m := rfl
@[simp] theorem setLoop_gen (s : State) (z : Nat) (r : Loop) (m : Nat) :
    (s.setLoop z r).gen m = s.gen m := rfl
@[simp] theorem setLoop_line (s : State) (z : Nat) (r : Loop) (m : Nat) :
    (s.setLoop z r).line m = s.line m := rfl
@[simp] theorem setLoop_genSettings (s : State) (z : Nat) (r : Loop) (m : Nat) :
    (s.setLoop z r).genSettings m = s.genSettings m := rfl
@[simp] theorem setLoop_crane (s : State) (z : Nat) (r : Loop) (x : Crane) :
    (s.setLoop z r).crane x = s.crane x := by cases x <;> rfl
@[simp] theorem setLoop_craneSettings (s : State) (z : Nat) (r : Loop) (x : Crane) :
    (s.setLoop z r).craneSettings x = s.craneSettings x := by cases x <;> rfl
@[simp] theorem setLoop_schedCrane (s : State) (z : Nat) (r : Loop) (x : Crane) :
    (s.setLoop z r).schedCrane x = s.schedCrane x := by cases x <;> rfl
@[simp] theorem setLoop_port (s : State) (z : Nat) (r : Loop) (p' : Port) :
    (s.setLoop z r).port p' = s.port p' := by cases p' <;> rfl
@[simp] theorem setLoop_running (s : State) (z : Nat) (r : Loop) : (s.setLoop z r).running = s.running := rfl

/-! ## setZone -/

@[simp] theorem setZone_bins (s : State) (z : Nat) (r : Zone) : (s.setZone z r).bins = s.bins := rfl
@[simp] theorem setZone_cells (s : State) (z : Nat) (r : Zone) : (s.setZone z r).cells = s.cells := rfl
@[simp] theorem setZone_bays (s : State) (z : Nat) (r : Zone) : (s.setZone z r).bays = s.bays := rfl
@[simp] theorem setZone_slots (s : State) (z : Nat) (r : Zone) : (s.setZone z r).slots = s.slots := rfl
@[simp] theorem setZone_counter (s : State) (z : Nat) (r : Zone) : (s.setZone z r).counter = s.counter := rfl
@[simp] theorem setZone_craneA (s : State) (z : Nat) (r : Zone) : (s.setZone z r).craneA = s.craneA := rfl
@[simp] theorem setZone_craneB (s : State) (z : Nat) (r : Zone) : (s.setZone z r).craneB = s.craneB := rfl
@[simp] theorem setZone_segs (s : State) (z : Nat) (r : Zone) : (s.setZone z r).segs = s.segs := rfl
@[simp] theorem setZone_sched (s : State) (z : Nat) (r : Zone) : (s.setZone z r).sched = s.sched := rfl
@[simp] theorem setZone_loops (s : State) (z : Nat) (r : Zone) : (s.setZone z r).loops = s.loops := rfl
@[simp] theorem setZone_zones (s : State) (z : Nat) (r : Zone) : (s.setZone z r).zones = tableSet .cold s.zones z r := rfl
@[simp] theorem setZone_shutters (s : State) (z : Nat) (r : Zone) : (s.setZone z r).shutters = s.shutters := rfl
@[simp] theorem setZone_manualRelease (s : State) (z : Nat) (r : Zone) : (s.setZone z r).manualRelease = s.manualRelease := rfl
@[simp] theorem setZone_gens (s : State) (z : Nat) (r : Zone) : (s.setZone z r).gens = s.gens := rfl
@[simp] theorem setZone_lines (s : State) (z : Nat) (r : Zone) : (s.setZone z r).lines = s.lines := rfl
@[simp] theorem setZone_settings (s : State) (z : Nat) (r : Zone) : (s.setZone z r).settings = s.settings := rfl
@[simp] theorem setZone_portC (s : State) (z : Nat) (r : Zone) : (s.setZone z r).portC = s.portC := rfl
@[simp] theorem setZone_portA (s : State) (z : Nat) (r : Zone) : (s.setZone z r).portA = s.portA := rfl
@[simp] theorem setZone_portB (s : State) (z : Nat) (r : Zone) : (s.setZone z r).portB = s.portB := rfl
@[simp] theorem setZone_portS (s : State) (z : Nat) (r : Zone) : (s.setZone z r).portS = s.portS := rfl
@[simp] theorem setZone_power (s : State) (z : Nat) (r : Zone) : (s.setZone z r).power = s.power := rfl
@[simp] theorem setZone_coldStart (s : State) (z : Nat) (r : Zone) : (s.setZone z r).coldStart = s.coldStart := rfl
@[simp] theorem setZone_pending (s : State) (z : Nat) (r : Zone) : (s.setZone z r).pending = s.pending := rfl
@[simp] theorem setZone_bin (s : State) (z : Nat) (r : Zone) (m : Nat) :
    (s.setZone z r).bin m = s.bin m := rfl
@[simp] theorem setZone_cell (s : State) (z : Nat) (r : Zone) (m : Nat) :
    (s.setZone z r).cell m = s.cell m := rfl
@[simp] theorem setZone_bay (s : State) (z : Nat) (r : Zone) (st' : Station) (m : Nat) :
    (s.setZone z r).bay st' m = s.bay st' m := rfl
@[simp] theorem setZone_slot (s : State) (z : Nat) (r : Zone) (m : Nat) :
    (s.setZone z r).slot m = s.slot m := rfl
@[simp] theorem setZone_seg (s : State) (z : Nat) (r : Zone) (m : Nat) :
    (s.setZone z r).seg m = s.seg m := rfl
@[simp] theorem setZone_loop (s : State) (z : Nat) (r : Zone) (m : Nat) :
    (s.setZone z r).loop m = s.loop m := rfl
@[simp] theorem setZone_shutter (s : State) (z : Nat) (r : Zone) (m : Nat) :
    (s.setZone z r).shutter m = s.shutter m := rfl
@[simp] theorem setZone_gen (s : State) (z : Nat) (r : Zone) (m : Nat) :
    (s.setZone z r).gen m = s.gen m := rfl
@[simp] theorem setZone_line (s : State) (z : Nat) (r : Zone) (m : Nat) :
    (s.setZone z r).line m = s.line m := rfl
@[simp] theorem setZone_genSettings (s : State) (z : Nat) (r : Zone) (m : Nat) :
    (s.setZone z r).genSettings m = s.genSettings m := rfl
@[simp] theorem setZone_crane (s : State) (z : Nat) (r : Zone) (x : Crane) :
    (s.setZone z r).crane x = s.crane x := by cases x <;> rfl
@[simp] theorem setZone_craneSettings (s : State) (z : Nat) (r : Zone) (x : Crane) :
    (s.setZone z r).craneSettings x = s.craneSettings x := by cases x <;> rfl
@[simp] theorem setZone_schedCrane (s : State) (z : Nat) (r : Zone) (x : Crane) :
    (s.setZone z r).schedCrane x = s.schedCrane x := by cases x <;> rfl
@[simp] theorem setZone_port (s : State) (z : Nat) (r : Zone) (p' : Port) :
    (s.setZone z r).port p' = s.port p' := by cases p' <;> rfl
@[simp] theorem setZone_running (s : State) (z : Nat) (r : Zone) : (s.setZone z r).running = s.running := rfl

/-! ## setShutter -/

@[simp] theorem setShutter_bins (s : State) (k : Nat) (r : Shutter) : (s.setShutter k r).bins = s.bins := rfl
@[simp] theorem setShutter_cells (s : State) (k : Nat) (r : Shutter) : (s.setShutter k r).cells = s.cells := rfl
@[simp] theorem setShutter_bays (s : State) (k : Nat) (r : Shutter) : (s.setShutter k r).bays = s.bays := rfl
@[simp] theorem setShutter_slots (s : State) (k : Nat) (r : Shutter) : (s.setShutter k r).slots = s.slots := rfl
@[simp] theorem setShutter_counter (s : State) (k : Nat) (r : Shutter) : (s.setShutter k r).counter = s.counter := rfl
@[simp] theorem setShutter_craneA (s : State) (k : Nat) (r : Shutter) : (s.setShutter k r).craneA = s.craneA := rfl
@[simp] theorem setShutter_craneB (s : State) (k : Nat) (r : Shutter) : (s.setShutter k r).craneB = s.craneB := rfl
@[simp] theorem setShutter_segs (s : State) (k : Nat) (r : Shutter) : (s.setShutter k r).segs = s.segs := rfl
@[simp] theorem setShutter_sched (s : State) (k : Nat) (r : Shutter) : (s.setShutter k r).sched = s.sched := rfl
@[simp] theorem setShutter_loops (s : State) (k : Nat) (r : Shutter) : (s.setShutter k r).loops = s.loops := rfl
@[simp] theorem setShutter_zones (s : State) (k : Nat) (r : Shutter) : (s.setShutter k r).zones = s.zones := rfl
@[simp] theorem setShutter_shutters (s : State) (k : Nat) (r : Shutter) : (s.setShutter k r).shutters = tableSet .atTop s.shutters k r := rfl
@[simp] theorem setShutter_manualRelease (s : State) (k : Nat) (r : Shutter) : (s.setShutter k r).manualRelease = s.manualRelease := rfl
@[simp] theorem setShutter_gens (s : State) (k : Nat) (r : Shutter) : (s.setShutter k r).gens = s.gens := rfl
@[simp] theorem setShutter_lines (s : State) (k : Nat) (r : Shutter) : (s.setShutter k r).lines = s.lines := rfl
@[simp] theorem setShutter_settings (s : State) (k : Nat) (r : Shutter) : (s.setShutter k r).settings = s.settings := rfl
@[simp] theorem setShutter_portC (s : State) (k : Nat) (r : Shutter) : (s.setShutter k r).portC = s.portC := rfl
@[simp] theorem setShutter_portA (s : State) (k : Nat) (r : Shutter) : (s.setShutter k r).portA = s.portA := rfl
@[simp] theorem setShutter_portB (s : State) (k : Nat) (r : Shutter) : (s.setShutter k r).portB = s.portB := rfl
@[simp] theorem setShutter_portS (s : State) (k : Nat) (r : Shutter) : (s.setShutter k r).portS = s.portS := rfl
@[simp] theorem setShutter_power (s : State) (k : Nat) (r : Shutter) : (s.setShutter k r).power = s.power := rfl
@[simp] theorem setShutter_coldStart (s : State) (k : Nat) (r : Shutter) : (s.setShutter k r).coldStart = s.coldStart := rfl
@[simp] theorem setShutter_pending (s : State) (k : Nat) (r : Shutter) : (s.setShutter k r).pending = s.pending := rfl
@[simp] theorem setShutter_bin (s : State) (k : Nat) (r : Shutter) (m : Nat) :
    (s.setShutter k r).bin m = s.bin m := rfl
@[simp] theorem setShutter_cell (s : State) (k : Nat) (r : Shutter) (m : Nat) :
    (s.setShutter k r).cell m = s.cell m := rfl
@[simp] theorem setShutter_bay (s : State) (k : Nat) (r : Shutter) (st' : Station) (m : Nat) :
    (s.setShutter k r).bay st' m = s.bay st' m := rfl
@[simp] theorem setShutter_slot (s : State) (k : Nat) (r : Shutter) (m : Nat) :
    (s.setShutter k r).slot m = s.slot m := rfl
@[simp] theorem setShutter_seg (s : State) (k : Nat) (r : Shutter) (m : Nat) :
    (s.setShutter k r).seg m = s.seg m := rfl
@[simp] theorem setShutter_loop (s : State) (k : Nat) (r : Shutter) (m : Nat) :
    (s.setShutter k r).loop m = s.loop m := rfl
@[simp] theorem setShutter_zone (s : State) (k : Nat) (r : Shutter) (m : Nat) :
    (s.setShutter k r).zone m = s.zone m := rfl
@[simp] theorem setShutter_gen (s : State) (k : Nat) (r : Shutter) (m : Nat) :
    (s.setShutter k r).gen m = s.gen m := rfl
@[simp] theorem setShutter_line (s : State) (k : Nat) (r : Shutter) (m : Nat) :
    (s.setShutter k r).line m = s.line m := rfl
@[simp] theorem setShutter_genSettings (s : State) (k : Nat) (r : Shutter) (m : Nat) :
    (s.setShutter k r).genSettings m = s.genSettings m := rfl
@[simp] theorem setShutter_crane (s : State) (k : Nat) (r : Shutter) (x : Crane) :
    (s.setShutter k r).crane x = s.crane x := by cases x <;> rfl
@[simp] theorem setShutter_craneSettings (s : State) (k : Nat) (r : Shutter) (x : Crane) :
    (s.setShutter k r).craneSettings x = s.craneSettings x := by cases x <;> rfl
@[simp] theorem setShutter_schedCrane (s : State) (k : Nat) (r : Shutter) (x : Crane) :
    (s.setShutter k r).schedCrane x = s.schedCrane x := by cases x <;> rfl
@[simp] theorem setShutter_port (s : State) (k : Nat) (r : Shutter) (p' : Port) :
    (s.setShutter k r).port p' = s.port p' := by cases p' <;> rfl
@[simp] theorem setShutter_running (s : State) (k : Nat) (r : Shutter) : (s.setShutter k r).running = s.running := rfl

/-! ## setManual -/

@[simp] theorem setManual_bins (s : State) (v : Bool) : (s.setManual v).bins = s.bins := rfl
@[simp] theorem setManual_cells (s : State) (v : Bool) : (s.setManual v).cells = s.cells := rfl
@[simp] theorem setManual_bays (s : State) (v : Bool) : (s.setManual v).bays = s.bays := rfl
@[simp] theorem setManual_slots (s : State) (v : Bool) : (s.setManual v).slots = s.slots := rfl
@[simp] theorem setManual_counter (s : State) (v : Bool) : (s.setManual v).counter = s.counter := rfl
@[simp] theorem setManual_craneA (s : State) (v : Bool) : (s.setManual v).craneA = s.craneA := rfl
@[simp] theorem setManual_craneB (s : State) (v : Bool) : (s.setManual v).craneB = s.craneB := rfl
@[simp] theorem setManual_segs (s : State) (v : Bool) : (s.setManual v).segs = s.segs := rfl
@[simp] theorem setManual_sched (s : State) (v : Bool) : (s.setManual v).sched = s.sched := rfl
@[simp] theorem setManual_loops (s : State) (v : Bool) : (s.setManual v).loops = s.loops := rfl
@[simp] theorem setManual_zones (s : State) (v : Bool) : (s.setManual v).zones = s.zones := rfl
@[simp] theorem setManual_shutters (s : State) (v : Bool) : (s.setManual v).shutters = s.shutters := rfl
@[simp] theorem setManual_manualRelease (s : State) (v : Bool) : (s.setManual v).manualRelease = v := rfl
@[simp] theorem setManual_gens (s : State) (v : Bool) : (s.setManual v).gens = s.gens := rfl
@[simp] theorem setManual_lines (s : State) (v : Bool) : (s.setManual v).lines = s.lines := rfl
@[simp] theorem setManual_settings (s : State) (v : Bool) : (s.setManual v).settings = s.settings := rfl
@[simp] theorem setManual_portC (s : State) (v : Bool) : (s.setManual v).portC = s.portC := rfl
@[simp] theorem setManual_portA (s : State) (v : Bool) : (s.setManual v).portA = s.portA := rfl
@[simp] theorem setManual_portB (s : State) (v : Bool) : (s.setManual v).portB = s.portB := rfl
@[simp] theorem setManual_portS (s : State) (v : Bool) : (s.setManual v).portS = s.portS := rfl
@[simp] theorem setManual_power (s : State) (v : Bool) : (s.setManual v).power = s.power := rfl
@[simp] theorem setManual_coldStart (s : State) (v : Bool) : (s.setManual v).coldStart = s.coldStart := rfl
@[simp] theorem setManual_pending (s : State) (v : Bool) : (s.setManual v).pending = s.pending := rfl
@[simp] theorem setManual_bin (s : State) (v : Bool) (m : Nat) :
    (s.setManual v).bin m = s.bin m := rfl
@[simp] theorem setManual_cell (s : State) (v : Bool) (m : Nat) :
    (s.setManual v).cell m = s.cell m := rfl
@[simp] theorem setManual_bay (s : State) (v : Bool) (st' : Station) (m : Nat) :
    (s.setManual v).bay st' m = s.bay st' m := rfl
@[simp] theorem setManual_slot (s : State) (v : Bool) (m : Nat) :
    (s.setManual v).slot m = s.slot m := rfl
@[simp] theorem setManual_seg (s : State) (v : Bool) (m : Nat) :
    (s.setManual v).seg m = s.seg m := rfl
@[simp] theorem setManual_loop (s : State) (v : Bool) (m : Nat) :
    (s.setManual v).loop m = s.loop m := rfl
@[simp] theorem setManual_zone (s : State) (v : Bool) (m : Nat) :
    (s.setManual v).zone m = s.zone m := rfl
@[simp] theorem setManual_shutter (s : State) (v : Bool) (m : Nat) :
    (s.setManual v).shutter m = s.shutter m := rfl
@[simp] theorem setManual_gen (s : State) (v : Bool) (m : Nat) :
    (s.setManual v).gen m = s.gen m := rfl
@[simp] theorem setManual_line (s : State) (v : Bool) (m : Nat) :
    (s.setManual v).line m = s.line m := rfl
@[simp] theorem setManual_genSettings (s : State) (v : Bool) (m : Nat) :
    (s.setManual v).genSettings m = s.genSettings m := rfl
@[simp] theorem setManual_crane (s : State) (v : Bool) (x : Crane) :
    (s.setManual v).crane x = s.crane x := by cases x <;> rfl
@[simp] theorem setManual_craneSettings (s : State) (v : Bool) (x : Crane) :
    (s.setManual v).craneSettings x = s.craneSettings x := by cases x <;> rfl
@[simp] theorem setManual_schedCrane (s : State) (v : Bool) (x : Crane) :
    (s.setManual v).schedCrane x = s.schedCrane x := by cases x <;> rfl
@[simp] theorem setManual_port (s : State) (v : Bool) (p' : Port) :
    (s.setManual v).port p' = s.port p' := by cases p' <;> rfl
@[simp] theorem setManual_running (s : State) (v : Bool) : (s.setManual v).running = s.running := rfl

/-! ## setGen -/

@[simp] theorem setGen_bins (s : State) (k : Nat) (r : GenPhase) : (s.setGen k r).bins = s.bins := rfl
@[simp] theorem setGen_cells (s : State) (k : Nat) (r : GenPhase) : (s.setGen k r).cells = s.cells := rfl
@[simp] theorem setGen_bays (s : State) (k : Nat) (r : GenPhase) : (s.setGen k r).bays = s.bays := rfl
@[simp] theorem setGen_slots (s : State) (k : Nat) (r : GenPhase) : (s.setGen k r).slots = s.slots := rfl
@[simp] theorem setGen_counter (s : State) (k : Nat) (r : GenPhase) : (s.setGen k r).counter = s.counter := rfl
@[simp] theorem setGen_craneA (s : State) (k : Nat) (r : GenPhase) : (s.setGen k r).craneA = s.craneA := rfl
@[simp] theorem setGen_craneB (s : State) (k : Nat) (r : GenPhase) : (s.setGen k r).craneB = s.craneB := rfl
@[simp] theorem setGen_segs (s : State) (k : Nat) (r : GenPhase) : (s.setGen k r).segs = s.segs := rfl
@[simp] theorem setGen_sched (s : State) (k : Nat) (r : GenPhase) : (s.setGen k r).sched = s.sched := rfl
@[simp] theorem setGen_loops (s : State) (k : Nat) (r : GenPhase) : (s.setGen k r).loops = s.loops := rfl
@[simp] theorem setGen_zones (s : State) (k : Nat) (r : GenPhase) : (s.setGen k r).zones = s.zones := rfl
@[simp] theorem setGen_shutters (s : State) (k : Nat) (r : GenPhase) : (s.setGen k r).shutters = s.shutters := rfl
@[simp] theorem setGen_manualRelease (s : State) (k : Nat) (r : GenPhase) : (s.setGen k r).manualRelease = s.manualRelease := rfl
@[simp] theorem setGen_gens (s : State) (k : Nat) (r : GenPhase) : (s.setGen k r).gens = tableSet .cold s.gens k r := rfl
@[simp] theorem setGen_lines (s : State) (k : Nat) (r : GenPhase) : (s.setGen k r).lines = s.lines := rfl
@[simp] theorem setGen_settings (s : State) (k : Nat) (r : GenPhase) : (s.setGen k r).settings = s.settings := rfl
@[simp] theorem setGen_portC (s : State) (k : Nat) (r : GenPhase) : (s.setGen k r).portC = s.portC := rfl
@[simp] theorem setGen_portA (s : State) (k : Nat) (r : GenPhase) : (s.setGen k r).portA = s.portA := rfl
@[simp] theorem setGen_portB (s : State) (k : Nat) (r : GenPhase) : (s.setGen k r).portB = s.portB := rfl
@[simp] theorem setGen_portS (s : State) (k : Nat) (r : GenPhase) : (s.setGen k r).portS = s.portS := rfl
@[simp] theorem setGen_power (s : State) (k : Nat) (r : GenPhase) : (s.setGen k r).power = s.power := rfl
@[simp] theorem setGen_coldStart (s : State) (k : Nat) (r : GenPhase) : (s.setGen k r).coldStart = s.coldStart := rfl
@[simp] theorem setGen_pending (s : State) (k : Nat) (r : GenPhase) : (s.setGen k r).pending = s.pending := rfl
@[simp] theorem setGen_bin (s : State) (k : Nat) (r : GenPhase) (m : Nat) :
    (s.setGen k r).bin m = s.bin m := rfl
@[simp] theorem setGen_cell (s : State) (k : Nat) (r : GenPhase) (m : Nat) :
    (s.setGen k r).cell m = s.cell m := rfl
@[simp] theorem setGen_bay (s : State) (k : Nat) (r : GenPhase) (st' : Station) (m : Nat) :
    (s.setGen k r).bay st' m = s.bay st' m := rfl
@[simp] theorem setGen_slot (s : State) (k : Nat) (r : GenPhase) (m : Nat) :
    (s.setGen k r).slot m = s.slot m := rfl
@[simp] theorem setGen_seg (s : State) (k : Nat) (r : GenPhase) (m : Nat) :
    (s.setGen k r).seg m = s.seg m := rfl
@[simp] theorem setGen_loop (s : State) (k : Nat) (r : GenPhase) (m : Nat) :
    (s.setGen k r).loop m = s.loop m := rfl
@[simp] theorem setGen_zone (s : State) (k : Nat) (r : GenPhase) (m : Nat) :
    (s.setGen k r).zone m = s.zone m := rfl
@[simp] theorem setGen_shutter (s : State) (k : Nat) (r : GenPhase) (m : Nat) :
    (s.setGen k r).shutter m = s.shutter m := rfl
@[simp] theorem setGen_line (s : State) (k : Nat) (r : GenPhase) (m : Nat) :
    (s.setGen k r).line m = s.line m := rfl
@[simp] theorem setGen_genSettings (s : State) (k : Nat) (r : GenPhase) (m : Nat) :
    (s.setGen k r).genSettings m = s.genSettings m := rfl
@[simp] theorem setGen_crane (s : State) (k : Nat) (r : GenPhase) (x : Crane) :
    (s.setGen k r).crane x = s.crane x := by cases x <;> rfl
@[simp] theorem setGen_craneSettings (s : State) (k : Nat) (r : GenPhase) (x : Crane) :
    (s.setGen k r).craneSettings x = s.craneSettings x := by cases x <;> rfl
@[simp] theorem setGen_schedCrane (s : State) (k : Nat) (r : GenPhase) (x : Crane) :
    (s.setGen k r).schedCrane x = s.schedCrane x := by cases x <;> rfl
@[simp] theorem setGen_port (s : State) (k : Nat) (r : GenPhase) (p' : Port) :
    (s.setGen k r).port p' = s.port p' := by cases p' <;> rfl
@[simp] theorem setGen_running (s : State) (k : Nat) (r : GenPhase) : (s.setGen k r).running = s.running := rfl

/-! ## setLine -/

@[simp] theorem setLine_bins (s : State) (n : Nat) (r : Source) : (s.setLine n r).bins = s.bins := rfl
@[simp] theorem setLine_cells (s : State) (n : Nat) (r : Source) : (s.setLine n r).cells = s.cells := rfl
@[simp] theorem setLine_bays (s : State) (n : Nat) (r : Source) : (s.setLine n r).bays = s.bays := rfl
@[simp] theorem setLine_slots (s : State) (n : Nat) (r : Source) : (s.setLine n r).slots = s.slots := rfl
@[simp] theorem setLine_counter (s : State) (n : Nat) (r : Source) : (s.setLine n r).counter = s.counter := rfl
@[simp] theorem setLine_craneA (s : State) (n : Nat) (r : Source) : (s.setLine n r).craneA = s.craneA := rfl
@[simp] theorem setLine_craneB (s : State) (n : Nat) (r : Source) : (s.setLine n r).craneB = s.craneB := rfl
@[simp] theorem setLine_segs (s : State) (n : Nat) (r : Source) : (s.setLine n r).segs = s.segs := rfl
@[simp] theorem setLine_sched (s : State) (n : Nat) (r : Source) : (s.setLine n r).sched = s.sched := rfl
@[simp] theorem setLine_loops (s : State) (n : Nat) (r : Source) : (s.setLine n r).loops = s.loops := rfl
@[simp] theorem setLine_zones (s : State) (n : Nat) (r : Source) : (s.setLine n r).zones = s.zones := rfl
@[simp] theorem setLine_shutters (s : State) (n : Nat) (r : Source) : (s.setLine n r).shutters = s.shutters := rfl
@[simp] theorem setLine_manualRelease (s : State) (n : Nat) (r : Source) : (s.setLine n r).manualRelease = s.manualRelease := rfl
@[simp] theorem setLine_gens (s : State) (n : Nat) (r : Source) : (s.setLine n r).gens = s.gens := rfl
@[simp] theorem setLine_lines (s : State) (n : Nat) (r : Source) : (s.setLine n r).lines = tableSet .low s.lines n r := rfl
@[simp] theorem setLine_settings (s : State) (n : Nat) (r : Source) : (s.setLine n r).settings = s.settings := rfl
@[simp] theorem setLine_portC (s : State) (n : Nat) (r : Source) : (s.setLine n r).portC = s.portC := rfl
@[simp] theorem setLine_portA (s : State) (n : Nat) (r : Source) : (s.setLine n r).portA = s.portA := rfl
@[simp] theorem setLine_portB (s : State) (n : Nat) (r : Source) : (s.setLine n r).portB = s.portB := rfl
@[simp] theorem setLine_portS (s : State) (n : Nat) (r : Source) : (s.setLine n r).portS = s.portS := rfl
@[simp] theorem setLine_power (s : State) (n : Nat) (r : Source) : (s.setLine n r).power = s.power := rfl
@[simp] theorem setLine_coldStart (s : State) (n : Nat) (r : Source) : (s.setLine n r).coldStart = s.coldStart := rfl
@[simp] theorem setLine_pending (s : State) (n : Nat) (r : Source) : (s.setLine n r).pending = s.pending := rfl
@[simp] theorem setLine_bin (s : State) (n : Nat) (r : Source) (m : Nat) :
    (s.setLine n r).bin m = s.bin m := rfl
@[simp] theorem setLine_cell (s : State) (n : Nat) (r : Source) (m : Nat) :
    (s.setLine n r).cell m = s.cell m := rfl
@[simp] theorem setLine_bay (s : State) (n : Nat) (r : Source) (st' : Station) (m : Nat) :
    (s.setLine n r).bay st' m = s.bay st' m := rfl
@[simp] theorem setLine_slot (s : State) (n : Nat) (r : Source) (m : Nat) :
    (s.setLine n r).slot m = s.slot m := rfl
@[simp] theorem setLine_seg (s : State) (n : Nat) (r : Source) (m : Nat) :
    (s.setLine n r).seg m = s.seg m := rfl
@[simp] theorem setLine_loop (s : State) (n : Nat) (r : Source) (m : Nat) :
    (s.setLine n r).loop m = s.loop m := rfl
@[simp] theorem setLine_zone (s : State) (n : Nat) (r : Source) (m : Nat) :
    (s.setLine n r).zone m = s.zone m := rfl
@[simp] theorem setLine_shutter (s : State) (n : Nat) (r : Source) (m : Nat) :
    (s.setLine n r).shutter m = s.shutter m := rfl
@[simp] theorem setLine_gen (s : State) (n : Nat) (r : Source) (m : Nat) :
    (s.setLine n r).gen m = s.gen m := rfl
@[simp] theorem setLine_genSettings (s : State) (n : Nat) (r : Source) (m : Nat) :
    (s.setLine n r).genSettings m = s.genSettings m := rfl
@[simp] theorem setLine_crane (s : State) (n : Nat) (r : Source) (x : Crane) :
    (s.setLine n r).crane x = s.crane x := by cases x <;> rfl
@[simp] theorem setLine_craneSettings (s : State) (n : Nat) (r : Source) (x : Crane) :
    (s.setLine n r).craneSettings x = s.craneSettings x := by cases x <;> rfl
@[simp] theorem setLine_schedCrane (s : State) (n : Nat) (r : Source) (x : Crane) :
    (s.setLine n r).schedCrane x = s.schedCrane x := by cases x <;> rfl
@[simp] theorem setLine_port (s : State) (n : Nat) (r : Source) (p' : Port) :
    (s.setLine n r).port p' = s.port p' := by cases p' <;> rfl
@[simp] theorem setLine_running (s : State) (n : Nat) (r : Source) : (s.setLine n r).running = s.running := rfl

/-! ## setSettings -/

@[simp] theorem setSettings_bins (s : State) (r : Settings) : (s.setSettings r).bins = s.bins := rfl
@[simp] theorem setSettings_cells (s : State) (r : Settings) : (s.setSettings r).cells = s.cells := rfl
@[simp] theorem setSettings_bays (s : State) (r : Settings) : (s.setSettings r).bays = s.bays := rfl
@[simp] theorem setSettings_slots (s : State) (r : Settings) : (s.setSettings r).slots = s.slots := rfl
@[simp] theorem setSettings_counter (s : State) (r : Settings) : (s.setSettings r).counter = s.counter := rfl
@[simp] theorem setSettings_craneA (s : State) (r : Settings) : (s.setSettings r).craneA = s.craneA := rfl
@[simp] theorem setSettings_craneB (s : State) (r : Settings) : (s.setSettings r).craneB = s.craneB := rfl
@[simp] theorem setSettings_segs (s : State) (r : Settings) : (s.setSettings r).segs = s.segs := rfl
@[simp] theorem setSettings_sched (s : State) (r : Settings) : (s.setSettings r).sched = s.sched := rfl
@[simp] theorem setSettings_loops (s : State) (r : Settings) : (s.setSettings r).loops = s.loops := rfl
@[simp] theorem setSettings_zones (s : State) (r : Settings) : (s.setSettings r).zones = s.zones := rfl
@[simp] theorem setSettings_shutters (s : State) (r : Settings) : (s.setSettings r).shutters = s.shutters := rfl
@[simp] theorem setSettings_manualRelease (s : State) (r : Settings) : (s.setSettings r).manualRelease = s.manualRelease := rfl
@[simp] theorem setSettings_gens (s : State) (r : Settings) : (s.setSettings r).gens = s.gens := rfl
@[simp] theorem setSettings_lines (s : State) (r : Settings) : (s.setSettings r).lines = s.lines := rfl
@[simp] theorem setSettings_settings (s : State) (r : Settings) : (s.setSettings r).settings = r := rfl
@[simp] theorem setSettings_portC (s : State) (r : Settings) : (s.setSettings r).portC = s.portC := rfl
@[simp] theorem setSettings_portA (s : State) (r : Settings) : (s.setSettings r).portA = s.portA := rfl
@[simp] theorem setSettings_portB (s : State) (r : Settings) : (s.setSettings r).portB = s.portB := rfl
@[simp] theorem setSettings_portS (s : State) (r : Settings) : (s.setSettings r).portS = s.portS := rfl
@[simp] theorem setSettings_power (s : State) (r : Settings) : (s.setSettings r).power = s.power := rfl
@[simp] theorem setSettings_coldStart (s : State) (r : Settings) : (s.setSettings r).coldStart = s.coldStart := rfl
@[simp] theorem setSettings_pending (s : State) (r : Settings) : (s.setSettings r).pending = s.pending := rfl
@[simp] theorem setSettings_bin (s : State) (r : Settings) (m : Nat) :
    (s.setSettings r).bin m = s.bin m := rfl
@[simp] theorem setSettings_cell (s : State) (r : Settings) (m : Nat) :
    (s.setSettings r).cell m = s.cell m := rfl
@[simp] theorem setSettings_bay (s : State) (r : Settings) (st' : Station) (m : Nat) :
    (s.setSettings r).bay st' m = s.bay st' m := rfl
@[simp] theorem setSettings_slot (s : State) (r : Settings) (m : Nat) :
    (s.setSettings r).slot m = s.slot m := rfl
@[simp] theorem setSettings_seg (s : State) (r : Settings) (m : Nat) :
    (s.setSettings r).seg m = s.seg m := rfl
@[simp] theorem setSettings_loop (s : State) (r : Settings) (m : Nat) :
    (s.setSettings r).loop m = s.loop m := rfl
@[simp] theorem setSettings_zone (s : State) (r : Settings) (m : Nat) :
    (s.setSettings r).zone m = s.zone m := rfl
@[simp] theorem setSettings_shutter (s : State) (r : Settings) (m : Nat) :
    (s.setSettings r).shutter m = s.shutter m := rfl
@[simp] theorem setSettings_gen (s : State) (r : Settings) (m : Nat) :
    (s.setSettings r).gen m = s.gen m := rfl
@[simp] theorem setSettings_line (s : State) (r : Settings) (m : Nat) :
    (s.setSettings r).line m = s.line m := rfl
@[simp] theorem setSettings_crane (s : State) (r : Settings) (x : Crane) :
    (s.setSettings r).crane x = s.crane x := by cases x <;> rfl
@[simp] theorem setSettings_schedCrane (s : State) (r : Settings) (x : Crane) :
    (s.setSettings r).schedCrane x = s.schedCrane x := by cases x <;> rfl
@[simp] theorem setSettings_port (s : State) (r : Settings) (p' : Port) :
    (s.setSettings r).port p' = s.port p' := by cases p' <;> rfl
@[simp] theorem setSettings_running (s : State) (r : Settings) : (s.setSettings r).running = s.running := rfl

/-! ## setPower -/

@[simp] theorem setPower_bins (s : State) (p : Power) : (s.setPower p).bins = s.bins := rfl
@[simp] theorem setPower_cells (s : State) (p : Power) : (s.setPower p).cells = s.cells := rfl
@[simp] theorem setPower_bays (s : State) (p : Power) : (s.setPower p).bays = s.bays := rfl
@[simp] theorem setPower_slots (s : State) (p : Power) : (s.setPower p).slots = s.slots := rfl
@[simp] theorem setPower_counter (s : State) (p : Power) : (s.setPower p).counter = s.counter := rfl
@[simp] theorem setPower_craneA (s : State) (p : Power) : (s.setPower p).craneA = s.craneA := rfl
@[simp] theorem setPower_craneB (s : State) (p : Power) : (s.setPower p).craneB = s.craneB := rfl
@[simp] theorem setPower_segs (s : State) (p : Power) : (s.setPower p).segs = s.segs := rfl
@[simp] theorem setPower_sched (s : State) (p : Power) : (s.setPower p).sched = s.sched := rfl
@[simp] theorem setPower_loops (s : State) (p : Power) : (s.setPower p).loops = s.loops := rfl
@[simp] theorem setPower_zones (s : State) (p : Power) : (s.setPower p).zones = s.zones := rfl
@[simp] theorem setPower_shutters (s : State) (p : Power) : (s.setPower p).shutters = s.shutters := rfl
@[simp] theorem setPower_manualRelease (s : State) (p : Power) : (s.setPower p).manualRelease = s.manualRelease := rfl
@[simp] theorem setPower_gens (s : State) (p : Power) : (s.setPower p).gens = s.gens := rfl
@[simp] theorem setPower_lines (s : State) (p : Power) : (s.setPower p).lines = s.lines := rfl
@[simp] theorem setPower_settings (s : State) (p : Power) : (s.setPower p).settings = s.settings := rfl
@[simp] theorem setPower_portC (s : State) (p : Power) : (s.setPower p).portC = s.portC := rfl
@[simp] theorem setPower_portA (s : State) (p : Power) : (s.setPower p).portA = s.portA := rfl
@[simp] theorem setPower_portB (s : State) (p : Power) : (s.setPower p).portB = s.portB := rfl
@[simp] theorem setPower_portS (s : State) (p : Power) : (s.setPower p).portS = s.portS := rfl
@[simp] theorem setPower_power (s : State) (p : Power) : (s.setPower p).power = p := rfl
@[simp] theorem setPower_coldStart (s : State) (p : Power) : (s.setPower p).coldStart = s.coldStart := rfl
@[simp] theorem setPower_pending (s : State) (p : Power) : (s.setPower p).pending = s.pending := rfl
@[simp] theorem setPower_bin (s : State) (p : Power) (m : Nat) :
    (s.setPower p).bin m = s.bin m := rfl
@[simp] theorem setPower_cell (s : State) (p : Power) (m : Nat) :
    (s.setPower p).cell m = s.cell m := rfl
@[simp] theorem setPower_bay (s : State) (p : Power) (st' : Station) (m : Nat) :
    (s.setPower p).bay st' m = s.bay st' m := rfl
@[simp] theorem setPower_slot (s : State) (p : Power) (m : Nat) :
    (s.setPower p).slot m = s.slot m := rfl
@[simp] theorem setPower_seg (s : State) (p : Power) (m : Nat) :
    (s.setPower p).seg m = s.seg m := rfl
@[simp] theorem setPower_loop (s : State) (p : Power) (m : Nat) :
    (s.setPower p).loop m = s.loop m := rfl
@[simp] theorem setPower_zone (s : State) (p : Power) (m : Nat) :
    (s.setPower p).zone m = s.zone m := rfl
@[simp] theorem setPower_shutter (s : State) (p : Power) (m : Nat) :
    (s.setPower p).shutter m = s.shutter m := rfl
@[simp] theorem setPower_gen (s : State) (p : Power) (m : Nat) :
    (s.setPower p).gen m = s.gen m := rfl
@[simp] theorem setPower_line (s : State) (p : Power) (m : Nat) :
    (s.setPower p).line m = s.line m := rfl
@[simp] theorem setPower_genSettings (s : State) (p : Power) (m : Nat) :
    (s.setPower p).genSettings m = s.genSettings m := rfl
@[simp] theorem setPower_crane (s : State) (p : Power) (x : Crane) :
    (s.setPower p).crane x = s.crane x := by cases x <;> rfl
@[simp] theorem setPower_craneSettings (s : State) (p : Power) (x : Crane) :
    (s.setPower p).craneSettings x = s.craneSettings x := by cases x <;> rfl
@[simp] theorem setPower_schedCrane (s : State) (p : Power) (x : Crane) :
    (s.setPower p).schedCrane x = s.schedCrane x := by cases x <;> rfl
@[simp] theorem setPower_port (s : State) (p : Power) (p' : Port) :
    (s.setPower p).port p' = s.port p' := by cases p' <;> rfl

/-! ## setColdStart -/

@[simp] theorem setColdStart_bins (s : State) (c : ColdStart) : (s.setColdStart c).bins = s.bins := rfl
@[simp] theorem setColdStart_cells (s : State) (c : ColdStart) : (s.setColdStart c).cells = s.cells := rfl
@[simp] theorem setColdStart_bays (s : State) (c : ColdStart) : (s.setColdStart c).bays = s.bays := rfl
@[simp] theorem setColdStart_slots (s : State) (c : ColdStart) : (s.setColdStart c).slots = s.slots := rfl
@[simp] theorem setColdStart_counter (s : State) (c : ColdStart) : (s.setColdStart c).counter = s.counter := rfl
@[simp] theorem setColdStart_craneA (s : State) (c : ColdStart) : (s.setColdStart c).craneA = s.craneA := rfl
@[simp] theorem setColdStart_craneB (s : State) (c : ColdStart) : (s.setColdStart c).craneB = s.craneB := rfl
@[simp] theorem setColdStart_segs (s : State) (c : ColdStart) : (s.setColdStart c).segs = s.segs := rfl
@[simp] theorem setColdStart_sched (s : State) (c : ColdStart) : (s.setColdStart c).sched = s.sched := rfl
@[simp] theorem setColdStart_loops (s : State) (c : ColdStart) : (s.setColdStart c).loops = s.loops := rfl
@[simp] theorem setColdStart_zones (s : State) (c : ColdStart) : (s.setColdStart c).zones = s.zones := rfl
@[simp] theorem setColdStart_shutters (s : State) (c : ColdStart) : (s.setColdStart c).shutters = s.shutters := rfl
@[simp] theorem setColdStart_manualRelease (s : State) (c : ColdStart) : (s.setColdStart c).manualRelease = s.manualRelease := rfl
@[simp] theorem setColdStart_gens (s : State) (c : ColdStart) : (s.setColdStart c).gens = s.gens := rfl
@[simp] theorem setColdStart_lines (s : State) (c : ColdStart) : (s.setColdStart c).lines = s.lines := rfl
@[simp] theorem setColdStart_settings (s : State) (c : ColdStart) : (s.setColdStart c).settings = s.settings := rfl
@[simp] theorem setColdStart_portC (s : State) (c : ColdStart) : (s.setColdStart c).portC = s.portC := rfl
@[simp] theorem setColdStart_portA (s : State) (c : ColdStart) : (s.setColdStart c).portA = s.portA := rfl
@[simp] theorem setColdStart_portB (s : State) (c : ColdStart) : (s.setColdStart c).portB = s.portB := rfl
@[simp] theorem setColdStart_portS (s : State) (c : ColdStart) : (s.setColdStart c).portS = s.portS := rfl
@[simp] theorem setColdStart_power (s : State) (c : ColdStart) : (s.setColdStart c).power = s.power := rfl
@[simp] theorem setColdStart_coldStart (s : State) (c : ColdStart) : (s.setColdStart c).coldStart = c := rfl
@[simp] theorem setColdStart_pending (s : State) (c : ColdStart) : (s.setColdStart c).pending = s.pending := rfl
@[simp] theorem setColdStart_bin (s : State) (c : ColdStart) (m : Nat) :
    (s.setColdStart c).bin m = s.bin m := rfl
@[simp] theorem setColdStart_cell (s : State) (c : ColdStart) (m : Nat) :
    (s.setColdStart c).cell m = s.cell m := rfl
@[simp] theorem setColdStart_bay (s : State) (c : ColdStart) (st' : Station) (m : Nat) :
    (s.setColdStart c).bay st' m = s.bay st' m := rfl
@[simp] theorem setColdStart_slot (s : State) (c : ColdStart) (m : Nat) :
    (s.setColdStart c).slot m = s.slot m := rfl
@[simp] theorem setColdStart_seg (s : State) (c : ColdStart) (m : Nat) :
    (s.setColdStart c).seg m = s.seg m := rfl
@[simp] theorem setColdStart_loop (s : State) (c : ColdStart) (m : Nat) :
    (s.setColdStart c).loop m = s.loop m := rfl
@[simp] theorem setColdStart_zone (s : State) (c : ColdStart) (m : Nat) :
    (s.setColdStart c).zone m = s.zone m := rfl
@[simp] theorem setColdStart_shutter (s : State) (c : ColdStart) (m : Nat) :
    (s.setColdStart c).shutter m = s.shutter m := rfl
@[simp] theorem setColdStart_gen (s : State) (c : ColdStart) (m : Nat) :
    (s.setColdStart c).gen m = s.gen m := rfl
@[simp] theorem setColdStart_line (s : State) (c : ColdStart) (m : Nat) :
    (s.setColdStart c).line m = s.line m := rfl
@[simp] theorem setColdStart_genSettings (s : State) (c : ColdStart) (m : Nat) :
    (s.setColdStart c).genSettings m = s.genSettings m := rfl
@[simp] theorem setColdStart_crane (s : State) (c : ColdStart) (x : Crane) :
    (s.setColdStart c).crane x = s.crane x := by cases x <;> rfl
@[simp] theorem setColdStart_craneSettings (s : State) (c : ColdStart) (x : Crane) :
    (s.setColdStart c).craneSettings x = s.craneSettings x := by cases x <;> rfl
@[simp] theorem setColdStart_schedCrane (s : State) (c : ColdStart) (x : Crane) :
    (s.setColdStart c).schedCrane x = s.schedCrane x := by cases x <;> rfl
@[simp] theorem setColdStart_port (s : State) (c : ColdStart) (p' : Port) :
    (s.setColdStart c).port p' = s.port p' := by cases p' <;> rfl
@[simp] theorem setColdStart_running (s : State) (c : ColdStart) : (s.setColdStart c).running = s.running := rfl

/-! ## setCrane -/

@[simp] theorem setCrane_bins (s : State) (c : Crane) (r : CraneRec) : (s.setCrane c r).bins = s.bins := by cases c <;> rfl
@[simp] theorem setCrane_cells (s : State) (c : Crane) (r : CraneRec) : (s.setCrane c r).cells = s.cells := by cases c <;> rfl
@[simp] theorem setCrane_bays (s : State) (c : Crane) (r : CraneRec) : (s.setCrane c r).bays = s.bays := by cases c <;> rfl
@[simp] theorem setCrane_slots (s : State) (c : Crane) (r : CraneRec) : (s.setCrane c r).slots = s.slots := by cases c <;> rfl
@[simp] theorem setCrane_counter (s : State) (c : Crane) (r : CraneRec) : (s.setCrane c r).counter = s.counter := by cases c <;> rfl
@[simp] theorem setCrane_segs (s : State) (c : Crane) (r : CraneRec) : (s.setCrane c r).segs = s.segs := by cases c <;> rfl
@[simp] theorem setCrane_sched (s : State) (c : Crane) (r : CraneRec) : (s.setCrane c r).sched = s.sched := by cases c <;> rfl
@[simp] theorem setCrane_loops (s : State) (c : Crane) (r : CraneRec) : (s.setCrane c r).loops = s.loops := by cases c <;> rfl
@[simp] theorem setCrane_zones (s : State) (c : Crane) (r : CraneRec) : (s.setCrane c r).zones = s.zones := by cases c <;> rfl
@[simp] theorem setCrane_shutters (s : State) (c : Crane) (r : CraneRec) : (s.setCrane c r).shutters = s.shutters := by cases c <;> rfl
@[simp] theorem setCrane_manualRelease (s : State) (c : Crane) (r : CraneRec) : (s.setCrane c r).manualRelease = s.manualRelease := by cases c <;> rfl
@[simp] theorem setCrane_gens (s : State) (c : Crane) (r : CraneRec) : (s.setCrane c r).gens = s.gens := by cases c <;> rfl
@[simp] theorem setCrane_lines (s : State) (c : Crane) (r : CraneRec) : (s.setCrane c r).lines = s.lines := by cases c <;> rfl
@[simp] theorem setCrane_settings (s : State) (c : Crane) (r : CraneRec) : (s.setCrane c r).settings = s.settings := by cases c <;> rfl
@[simp] theorem setCrane_portC (s : State) (c : Crane) (r : CraneRec) : (s.setCrane c r).portC = s.portC := by cases c <;> rfl
@[simp] theorem setCrane_portA (s : State) (c : Crane) (r : CraneRec) : (s.setCrane c r).portA = s.portA := by cases c <;> rfl
@[simp] theorem setCrane_portB (s : State) (c : Crane) (r : CraneRec) : (s.setCrane c r).portB = s.portB := by cases c <;> rfl
@[simp] theorem setCrane_portS (s : State) (c : Crane) (r : CraneRec) : (s.setCrane c r).portS = s.portS := by cases c <;> rfl
@[simp] theorem setCrane_power (s : State) (c : Crane) (r : CraneRec) : (s.setCrane c r).power = s.power := by cases c <;> rfl
@[simp] theorem setCrane_coldStart (s : State) (c : Crane) (r : CraneRec) : (s.setCrane c r).coldStart = s.coldStart := by cases c <;> rfl
@[simp] theorem setCrane_pending (s : State) (c : Crane) (r : CraneRec) : (s.setCrane c r).pending = s.pending := by cases c <;> rfl
@[simp] theorem setCrane_bin (s : State) (c : Crane) (r : CraneRec) (m : Nat) :
    (s.setCrane c r).bin m = s.bin m := by cases c <;> rfl
@[simp] theorem setCrane_cell (s : State) (c : Crane) (r : CraneRec) (m : Nat) :
    (s.setCrane c r).cell m = s.cell m := by cases c <;> rfl
@[simp] theorem setCrane_bay (s : State) (c : Crane) (r : CraneRec) (st' : Station) (m : Nat) :
    (s.setCrane c r).bay st' m = s.bay st' m := by cases c <;> rfl
@[simp] theorem setCrane_slot (s : State) (c : Crane) (r : CraneRec) (m : Nat) :
    (s.setCrane c r).slot m = s.slot m := by cases c <;> rfl
@[simp] theorem setCrane_seg (s : State) (c : Crane) (r : CraneRec) (m : Nat) :
    (s.setCrane c r).seg m = s.seg m := by cases c <;> rfl
@[simp] theorem setCrane_loop (s : State) (c : Crane) (r : CraneRec) (m : Nat) :
    (s.setCrane c r).loop m = s.loop m := by cases c <;> rfl
@[simp] theorem setCrane_zone (s : State) (c : Crane) (r : CraneRec) (m : Nat) :
    (s.setCrane c r).zone m = s.zone m := by cases c <;> rfl
@[simp] theorem setCrane_shutter (s : State) (c : Crane) (r : CraneRec) (m : Nat) :
    (s.setCrane c r).shutter m = s.shutter m := by cases c <;> rfl
@[simp] theorem setCrane_gen (s : State) (c : Crane) (r : CraneRec) (m : Nat) :
    (s.setCrane c r).gen m = s.gen m := by cases c <;> rfl
@[simp] theorem setCrane_line (s : State) (c : Crane) (r : CraneRec) (m : Nat) :
    (s.setCrane c r).line m = s.line m := by cases c <;> rfl
@[simp] theorem setCrane_genSettings (s : State) (c : Crane) (r : CraneRec) (m : Nat) :
    (s.setCrane c r).genSettings m = s.genSettings m := by cases c <;> rfl
@[simp] theorem setCrane_craneSettings (s : State) (c : Crane) (r : CraneRec) (x : Crane) :
    (s.setCrane c r).craneSettings x = s.craneSettings x := by cases c <;> cases x <;> rfl
@[simp] theorem setCrane_schedCrane (s : State) (c : Crane) (r : CraneRec) (x : Crane) :
    (s.setCrane c r).schedCrane x = s.schedCrane x := by cases c <;> cases x <;> rfl
@[simp] theorem setCrane_port (s : State) (c : Crane) (r : CraneRec) (p' : Port) :
    (s.setCrane c r).port p' = s.port p' := by cases c <;> cases p' <;> rfl
@[simp] theorem setCrane_running (s : State) (c : Crane) (r : CraneRec) : (s.setCrane c r).running = s.running := by cases c <;> rfl

/-! ## setSchedCrane -/

@[simp] theorem setSchedCrane_bins (s : State) (c : Crane) (r : SchedCrane) : (s.setSchedCrane c r).bins = s.bins := by cases c <;> rfl
@[simp] theorem setSchedCrane_cells (s : State) (c : Crane) (r : SchedCrane) : (s.setSchedCrane c r).cells = s.cells := by cases c <;> rfl
@[simp] theorem setSchedCrane_bays (s : State) (c : Crane) (r : SchedCrane) : (s.setSchedCrane c r).bays = s.bays := by cases c <;> rfl
@[simp] theorem setSchedCrane_slots (s : State) (c : Crane) (r : SchedCrane) : (s.setSchedCrane c r).slots = s.slots := by cases c <;> rfl
@[simp] theorem setSchedCrane_counter (s : State) (c : Crane) (r : SchedCrane) : (s.setSchedCrane c r).counter = s.counter := by cases c <;> rfl
@[simp] theorem setSchedCrane_craneA (s : State) (c : Crane) (r : SchedCrane) : (s.setSchedCrane c r).craneA = s.craneA := by cases c <;> rfl
@[simp] theorem setSchedCrane_craneB (s : State) (c : Crane) (r : SchedCrane) : (s.setSchedCrane c r).craneB = s.craneB := by cases c <;> rfl
@[simp] theorem setSchedCrane_segs (s : State) (c : Crane) (r : SchedCrane) : (s.setSchedCrane c r).segs = s.segs := by cases c <;> rfl
@[simp] theorem setSchedCrane_loops (s : State) (c : Crane) (r : SchedCrane) : (s.setSchedCrane c r).loops = s.loops := by cases c <;> rfl
@[simp] theorem setSchedCrane_zones (s : State) (c : Crane) (r : SchedCrane) : (s.setSchedCrane c r).zones = s.zones := by cases c <;> rfl
@[simp] theorem setSchedCrane_shutters (s : State) (c : Crane) (r : SchedCrane) : (s.setSchedCrane c r).shutters = s.shutters := by cases c <;> rfl
@[simp] theorem setSchedCrane_manualRelease (s : State) (c : Crane) (r : SchedCrane) : (s.setSchedCrane c r).manualRelease = s.manualRelease := by cases c <;> rfl
@[simp] theorem setSchedCrane_gens (s : State) (c : Crane) (r : SchedCrane) : (s.setSchedCrane c r).gens = s.gens := by cases c <;> rfl
@[simp] theorem setSchedCrane_lines (s : State) (c : Crane) (r : SchedCrane) : (s.setSchedCrane c r).lines = s.lines := by cases c <;> rfl
@[simp] theorem setSchedCrane_settings (s : State) (c : Crane) (r : SchedCrane) : (s.setSchedCrane c r).settings = s.settings := by cases c <;> rfl
@[simp] theorem setSchedCrane_portC (s : State) (c : Crane) (r : SchedCrane) : (s.setSchedCrane c r).portC = s.portC := by cases c <;> rfl
@[simp] theorem setSchedCrane_portA (s : State) (c : Crane) (r : SchedCrane) : (s.setSchedCrane c r).portA = s.portA := by cases c <;> rfl
@[simp] theorem setSchedCrane_portB (s : State) (c : Crane) (r : SchedCrane) : (s.setSchedCrane c r).portB = s.portB := by cases c <;> rfl
@[simp] theorem setSchedCrane_portS (s : State) (c : Crane) (r : SchedCrane) : (s.setSchedCrane c r).portS = s.portS := by cases c <;> rfl
@[simp] theorem setSchedCrane_power (s : State) (c : Crane) (r : SchedCrane) : (s.setSchedCrane c r).power = s.power := by cases c <;> rfl
@[simp] theorem setSchedCrane_coldStart (s : State) (c : Crane) (r : SchedCrane) : (s.setSchedCrane c r).coldStart = s.coldStart := by cases c <;> rfl
@[simp] theorem setSchedCrane_pending (s : State) (c : Crane) (r : SchedCrane) : (s.setSchedCrane c r).pending = s.pending := by cases c <;> rfl
@[simp] theorem setSchedCrane_bin (s : State) (c : Crane) (r : SchedCrane) (m : Nat) :
    (s.setSchedCrane c r).bin m = s.bin m := by cases c <;> rfl
@[simp] theorem setSchedCrane_cell (s : State) (c : Crane) (r : SchedCrane) (m : Nat) :
    (s.setSchedCrane c r).cell m = s.cell m := by cases c <;> rfl
@[simp] theorem setSchedCrane_bay (s : State) (c : Crane) (r : SchedCrane) (st' : Station) (m : Nat) :
    (s.setSchedCrane c r).bay st' m = s.bay st' m := by cases c <;> rfl
@[simp] theorem setSchedCrane_slot (s : State) (c : Crane) (r : SchedCrane) (m : Nat) :
    (s.setSchedCrane c r).slot m = s.slot m := by cases c <;> rfl
@[simp] theorem setSchedCrane_seg (s : State) (c : Crane) (r : SchedCrane) (m : Nat) :
    (s.setSchedCrane c r).seg m = s.seg m := by cases c <;> rfl
@[simp] theorem setSchedCrane_loop (s : State) (c : Crane) (r : SchedCrane) (m : Nat) :
    (s.setSchedCrane c r).loop m = s.loop m := by cases c <;> rfl
@[simp] theorem setSchedCrane_zone (s : State) (c : Crane) (r : SchedCrane) (m : Nat) :
    (s.setSchedCrane c r).zone m = s.zone m := by cases c <;> rfl
@[simp] theorem setSchedCrane_shutter (s : State) (c : Crane) (r : SchedCrane) (m : Nat) :
    (s.setSchedCrane c r).shutter m = s.shutter m := by cases c <;> rfl
@[simp] theorem setSchedCrane_gen (s : State) (c : Crane) (r : SchedCrane) (m : Nat) :
    (s.setSchedCrane c r).gen m = s.gen m := by cases c <;> rfl
@[simp] theorem setSchedCrane_line (s : State) (c : Crane) (r : SchedCrane) (m : Nat) :
    (s.setSchedCrane c r).line m = s.line m := by cases c <;> rfl
@[simp] theorem setSchedCrane_genSettings (s : State) (c : Crane) (r : SchedCrane) (m : Nat) :
    (s.setSchedCrane c r).genSettings m = s.genSettings m := by cases c <;> rfl
@[simp] theorem setSchedCrane_crane (s : State) (c : Crane) (r : SchedCrane) (x : Crane) :
    (s.setSchedCrane c r).crane x = s.crane x := by cases c <;> cases x <;> rfl
@[simp] theorem setSchedCrane_craneSettings (s : State) (c : Crane) (r : SchedCrane) (x : Crane) :
    (s.setSchedCrane c r).craneSettings x = s.craneSettings x := by cases c <;> cases x <;> rfl
@[simp] theorem setSchedCrane_port (s : State) (c : Crane) (r : SchedCrane) (p' : Port) :
    (s.setSchedCrane c r).port p' = s.port p' := by cases c <;> cases p' <;> rfl
@[simp] theorem setSchedCrane_running (s : State) (c : Crane) (r : SchedCrane) : (s.setSchedCrane c r).running = s.running := by cases c <;> rfl

/-! ## setPort -/

@[simp] theorem setPort_bins (s : State) (p : Port) (q : LinkPort) : (s.setPort p q).bins = s.bins := by cases p <;> rfl
@[simp] theorem setPort_cells (s : State) (p : Port) (q : LinkPort) : (s.setPort p q).cells = s.cells := by cases p <;> rfl
@[simp] theorem setPort_bays (s : State) (p : Port) (q : LinkPort) : (s.setPort p q).bays = s.bays := by cases p <;> rfl
@[simp] theorem setPort_slots (s : State) (p : Port) (q : LinkPort) : (s.setPort p q).slots = s.slots := by cases p <;> rfl
@[simp] theorem setPort_counter (s : State) (p : Port) (q : LinkPort) : (s.setPort p q).counter = s.counter := by cases p <;> rfl
@[simp] theorem setPort_craneA (s : State) (p : Port) (q : LinkPort) : (s.setPort p q).craneA = s.craneA := by cases p <;> rfl
@[simp] theorem setPort_craneB (s : State) (p : Port) (q : LinkPort) : (s.setPort p q).craneB = s.craneB := by cases p <;> rfl
@[simp] theorem setPort_segs (s : State) (p : Port) (q : LinkPort) : (s.setPort p q).segs = s.segs := by cases p <;> rfl
@[simp] theorem setPort_sched (s : State) (p : Port) (q : LinkPort) : (s.setPort p q).sched = s.sched := by cases p <;> rfl
@[simp] theorem setPort_loops (s : State) (p : Port) (q : LinkPort) : (s.setPort p q).loops = s.loops := by cases p <;> rfl
@[simp] theorem setPort_zones (s : State) (p : Port) (q : LinkPort) : (s.setPort p q).zones = s.zones := by cases p <;> rfl
@[simp] theorem setPort_shutters (s : State) (p : Port) (q : LinkPort) : (s.setPort p q).shutters = s.shutters := by cases p <;> rfl
@[simp] theorem setPort_manualRelease (s : State) (p : Port) (q : LinkPort) : (s.setPort p q).manualRelease = s.manualRelease := by cases p <;> rfl
@[simp] theorem setPort_gens (s : State) (p : Port) (q : LinkPort) : (s.setPort p q).gens = s.gens := by cases p <;> rfl
@[simp] theorem setPort_lines (s : State) (p : Port) (q : LinkPort) : (s.setPort p q).lines = s.lines := by cases p <;> rfl
@[simp] theorem setPort_settings (s : State) (p : Port) (q : LinkPort) : (s.setPort p q).settings = s.settings := by cases p <;> rfl
@[simp] theorem setPort_power (s : State) (p : Port) (q : LinkPort) : (s.setPort p q).power = s.power := by cases p <;> rfl
@[simp] theorem setPort_coldStart (s : State) (p : Port) (q : LinkPort) : (s.setPort p q).coldStart = s.coldStart := by cases p <;> rfl
@[simp] theorem setPort_pending (s : State) (p : Port) (q : LinkPort) : (s.setPort p q).pending = s.pending := by cases p <;> rfl
@[simp] theorem setPort_bin (s : State) (p : Port) (q : LinkPort) (m : Nat) :
    (s.setPort p q).bin m = s.bin m := by cases p <;> rfl
@[simp] theorem setPort_cell (s : State) (p : Port) (q : LinkPort) (m : Nat) :
    (s.setPort p q).cell m = s.cell m := by cases p <;> rfl
@[simp] theorem setPort_bay (s : State) (p : Port) (q : LinkPort) (st' : Station) (m : Nat) :
    (s.setPort p q).bay st' m = s.bay st' m := by cases p <;> rfl
@[simp] theorem setPort_slot (s : State) (p : Port) (q : LinkPort) (m : Nat) :
    (s.setPort p q).slot m = s.slot m := by cases p <;> rfl
@[simp] theorem setPort_seg (s : State) (p : Port) (q : LinkPort) (m : Nat) :
    (s.setPort p q).seg m = s.seg m := by cases p <;> rfl
@[simp] theorem setPort_loop (s : State) (p : Port) (q : LinkPort) (m : Nat) :
    (s.setPort p q).loop m = s.loop m := by cases p <;> rfl
@[simp] theorem setPort_zone (s : State) (p : Port) (q : LinkPort) (m : Nat) :
    (s.setPort p q).zone m = s.zone m := by cases p <;> rfl
@[simp] theorem setPort_shutter (s : State) (p : Port) (q : LinkPort) (m : Nat) :
    (s.setPort p q).shutter m = s.shutter m := by cases p <;> rfl
@[simp] theorem setPort_gen (s : State) (p : Port) (q : LinkPort) (m : Nat) :
    (s.setPort p q).gen m = s.gen m := by cases p <;> rfl
@[simp] theorem setPort_line (s : State) (p : Port) (q : LinkPort) (m : Nat) :
    (s.setPort p q).line m = s.line m := by cases p <;> rfl
@[simp] theorem setPort_genSettings (s : State) (p : Port) (q : LinkPort) (m : Nat) :
    (s.setPort p q).genSettings m = s.genSettings m := by cases p <;> rfl
@[simp] theorem setPort_crane (s : State) (p : Port) (q : LinkPort) (x : Crane) :
    (s.setPort p q).crane x = s.crane x := by cases p <;> cases x <;> rfl
@[simp] theorem setPort_craneSettings (s : State) (p : Port) (q : LinkPort) (x : Crane) :
    (s.setPort p q).craneSettings x = s.craneSettings x := by cases p <;> cases x <;> rfl
@[simp] theorem setPort_schedCrane (s : State) (p : Port) (q : LinkPort) (x : Crane) :
    (s.setPort p q).schedCrane x = s.schedCrane x := by cases p <;> cases x <;> rfl
@[simp] theorem setPort_running (s : State) (p : Port) (q : LinkPort) : (s.setPort p q).running = s.running := by cases p <;> rfl

/-! ## Records of a block with two or four members -/

@[simp] theorem crane_A (s : State) : s.crane .A = s.craneA := rfl
@[simp] theorem crane_B (s : State) : s.crane .B = s.craneB := rfl
@[simp] theorem port_C (s : State) : s.port .C = s.portC := rfl
@[simp] theorem port_A (s : State) : s.port .A = s.portA := rfl
@[simp] theorem port_B (s : State) : s.port .B = s.portB := rfl
@[simp] theorem port_S (s : State) : s.port .S = s.portS := rfl

@[simp] theorem setCrane_crane_same (s : State) (c : Crane) (r : CraneRec) : (s.setCrane c r).crane c = r := by
  cases c <;> rfl

theorem setCrane_crane_ne (s : State) (c x : Crane) (r : CraneRec) (h : x ≠ c) : (s.setCrane c r).crane x = s.crane x := by
  cases c <;> cases x <;> first | rfl | exact absurd rfl h

theorem setCrane_crane (s : State) (c x : Crane) (r : CraneRec) :
    (s.setCrane c r).crane x = if x = c then r else s.crane x := by
  cases c <;> cases x <;> rfl

@[simp] theorem setPort_port_same (s : State) (p : Port) (q : LinkPort) : (s.setPort p q).port p = q := by
  cases p <;> rfl

theorem setPort_port_ne (s : State) (p x : Port) (q : LinkPort) (h : x ≠ p) : (s.setPort p q).port x = s.port x := by
  cases p <;> cases x <;> first | rfl | exact absurd rfl h

theorem setPort_port (s : State) (p x : Port) (q : LinkPort) :
    (s.setPort p q).port x = if x = p then q else s.port x := by
  cases p <;> cases x <;> rfl

@[simp] theorem setSchedCrane_same (s : State) (c : Crane) (r : SchedCrane) :
    (s.setSchedCrane c r).schedCrane c = r := by cases c <;> rfl

theorem setSchedCrane_ne (s : State) (c x : Crane) (r : SchedCrane) (h : x ≠ c) :
    (s.setSchedCrane c r).schedCrane x = s.schedCrane x := by
  cases c <;> cases x <;> first | rfl | exact absurd rfl h

end Sys2Proof.Machine.State
end

