-- ==== Sys2Proof/Laws/Tables.lean ====
section
/-! SUPPORT. The laws of tables: a read after a write, the canonical form, and that every table operation keeps it. -/

namespace Sys2Proof.Machine

variable {α : Type}

/-! ## Reading after a write -/

theorem tableGet_erase_same (d : α) (t : Table α) (k : Nat) : tableGet d (tableErase t k) k = d := by
  induction t with
  | nil => rfl
  | cons e t ih =>
    obtain ⟨k', v⟩ := e
    by_cases h : k' = k <;> simp_all [tableErase, tableGet]

theorem tableGet_erase_ne (d : α) (t : Table α) {k m : Nat} (h : m ≠ k) :
    tableGet d (tableErase t k) m = tableGet d t m := by
  induction t with
  | nil => rfl
  | cons e t ih =>
    obtain ⟨k', v⟩ := e
    by_cases h1 : k' = k
    · subst h1; simp_all [tableErase, tableGet, Ne.symm h]
    · simp_all [tableErase, tableGet]

theorem tableGet_insert_same (d : α) (t : Table α) (k : Nat) (v : α) (h : ∀ e ∈ t, e.1 ≠ k) :
    tableGet d (tableInsert t k v) k = v := by
  induction t with
  | nil => simp [tableInsert, tableGet]
  | cons e t ih =>
    obtain ⟨k', v'⟩ := e
    have h1 : k' ≠ k := h _ (List.mem_cons_self ..)
    have h2 := ih (fun e he => h e (List.mem_cons_of_mem _ he))
    by_cases h3 : k < k' <;> simp [tableInsert, tableGet, h1, h2, h3]

theorem tableGet_insert_ne (d : α) (t : Table α) {k m : Nat} (v : α) (h : m ≠ k) :
    tableGet d (tableInsert t k v) m = tableGet d t m := by
  induction t with
  | nil => simp [tableInsert, tableGet, Ne.symm h]
  | cons e t ih =>
    obtain ⟨k', v'⟩ := e
    by_cases h3 : k < k' <;> simp [tableInsert, tableGet, h3, Ne.symm h, ih]

theorem erase_no_key (t : Table α) (k : Nat) : ∀ e ∈ tableErase t k, e.1 ≠ k := by
  intro e he
  simpa using (List.mem_filter.mp he).2

variable [DecidableEq α]

@[simp] theorem tableGet_set_same (d : α) (t : Table α) (k : Nat) (v : α) : tableGet d (tableSet d t k v) k = v := by
  unfold tableSet
  split
  · next h => rw [tableGet_erase_same, h]
  · exact tableGet_insert_same d _ k v (erase_no_key t k)

theorem tableGet_set_ne (d : α) (t : Table α) {k m : Nat} (v : α) (h : m ≠ k) :
    tableGet d (tableSet d t k v) m = tableGet d t m := by
  unfold tableSet
  split
  · exact tableGet_erase_ne d t h
  · rw [tableGet_insert_ne d _ v h, tableGet_erase_ne d t h]

theorem tableGet_set (d : α) (t : Table α) (k m : Nat) (v : α) :
    tableGet d (tableSet d t k v) m = if m = k then v else tableGet d t m := by
  split
  · next h => rw [h, tableGet_set_same]
  · next h => exact tableGet_set_ne d t v h

/-! ## The canonical form -/

omit [DecidableEq α] in
theorem tableSorted_iff (t : Table α) : tableSorted t = true ↔ t.Pairwise (fun a b => a.1 < b.1) := by
  induction t with
  | nil => simp [tableSorted]
  | cons e t ih => simp [tableSorted, ih]

theorem tableWf_iff (d : α) (t : Table α) :
    tableWf d t = true ↔ t.Pairwise (fun a b => a.1 < b.1) ∧ ∀ e ∈ t, e.2 ≠ d := by
  simp only [tableWf, Bool.and_eq_true, tableSorted_iff, List.all_eq_true, decide_eq_true_eq]

omit [DecidableEq α] in
theorem mem_tableInsert (t : Table α) (k : Nat) (v : α) (e : Nat × α) (h : e ∈ tableInsert t k v) :
    e = (k, v) ∨ e ∈ t := by
  induction t with
  | nil => simpa [tableInsert] using h
  | cons e' t ih =>
    unfold tableInsert at h
    split at h
    · simpa using h
    · rcases List.mem_cons.mp h with rfl | h
      · exact .inr (List.mem_cons_self ..)
      · rcases ih h with h | h
        · exact .inl h
        · exact .inr (List.mem_cons_of_mem _ h)

omit [DecidableEq α] in
theorem tableInsert_sorted (t : Table α) (k : Nat) (v : α) (hs : t.Pairwise (fun a b => a.1 < b.1))
    (hk : ∀ e ∈ t, e.1 ≠ k) : (tableInsert t k v).Pairwise (fun a b => a.1 < b.1) := by
  induction t with
  | nil => simp [tableInsert]
  | cons e t ih =>
    obtain ⟨k', v'⟩ := e
    have h1 : k' ≠ k := hk _ (List.mem_cons_self ..)
    obtain ⟨h2, h3⟩ := List.pairwise_cons.mp hs
    unfold tableInsert
    split
    · next h =>
      refine List.pairwise_cons.mpr ⟨?_, hs⟩
      intro e he
      rcases List.mem_cons.mp he with rfl | he
      · exact h
      · exact lt_trans h (h2 e he)
    · next h =>
      refine List.pairwise_cons.mpr ⟨?_, ih h3 (fun e he => hk e (List.mem_cons_of_mem _ he))⟩
      intro e he
      rcases mem_tableInsert t k v e he with rfl | he
      · exact lt_of_le_of_ne (not_lt.mp h) h1
      · exact h2 e he

theorem tableSet_wf (d : α) (t : Table α) (k : Nat) (v : α) (h : tableWf d t = true) :
    tableWf d (tableSet d t k v) = true := by
  rw [tableWf_iff] at h ⊢
  have he : (tableErase t k).Pairwise (fun a b => a.1 < b.1) := h.1.sublist List.filter_sublist
  have hd : ∀ e ∈ tableErase t k, e.2 ≠ d := fun e he => h.2 e (List.mem_filter.mp he).1
  unfold tableSet
  split
  · exact ⟨he, hd⟩
  · next hv =>
    refine ⟨tableInsert_sorted _ k v he (erase_no_key t k), fun e hm => ?_⟩
    rcases mem_tableInsert _ k v e hm with rfl | hm
    · exact hv
    · exact hd e hm

theorem tableMap_wf (d : α) (f : α → α) (t : Table α) (h : tableWf d t = true) :
    tableWf d (tableMap d f t) = true := by
  rw [tableWf_iff] at h ⊢
  constructor
  · refine List.Pairwise.filterMap _ (fun a b hab c hc e he => ?_) h.1
    have h1 : c.1 = a.1 := by split at hc <;> cases hc; rfl
    have h2 : e.1 = b.1 := by split at he <;> cases he; rfl
    omega
  · intro e he
    obtain ⟨a, _, ha⟩ := List.mem_filterMap.mp he
    split at ha
    · cases ha
    · next hne =>
      cases ha
      exact hne

/-- A read after a map, where the map leaves the default as it is. -/
theorem tableGet_map (d : α) (f : α → α) (hf : f d = d) (t : Table α) (h : tableWf d t = true) (k : Nat) :
    tableGet d (tableMap d f t) k = f (tableGet d t k) := by
  rw [tableWf_iff] at h
  obtain ⟨hs, -⟩ := h
  induction t with
  | nil => simp [tableMap, tableGet, hf]
  | cons e t ih =>
    obtain ⟨k', v⟩ := e
    obtain ⟨h1, h2⟩ := List.pairwise_cons.mp hs
    have ih := ih h2
    have absent : k' = k → tableGet d t k = d := by
      rintro rfl
      clear * - h1
      induction t with
      | nil => rfl
      | cons e t ih2 =>
        have h3 : k' < e.1 := h1 e (List.mem_cons_self ..)
        have h4 : e.1 ≠ k' := by omega
        simp only [tableGet, h4, if_false]
        exact ih2 (fun e he => h1 e (List.mem_cons_of_mem _ he))
    by_cases hv : f v = d
    · have e1 : tableMap d f ((k', v) :: t) = tableMap d f t := by simp [tableMap, hv]
      rw [e1, ih]
      by_cases hk : k' = k
      · rw [absent hk]; simp [tableGet, hk, hf, hv]
      · simp [tableGet, hk]
    · have e1 : tableMap d f ((k', v) :: t) = (k', f v) :: tableMap d f t := by simp [tableMap, hv]
      rw [e1]
      by_cases hk : k' = k
      · simp [tableGet, hk]
      · simp [tableGet, hk, ih]

/-! ## A write after a write -/

omit [DecidableEq α] in
theorem erase_insert (t : Table α) (k : Nat) (v : α) (h : ∀ e ∈ t, e.1 ≠ k) : tableErase (tableInsert t k v) k = t := by
  have ht : tableErase t k = t := List.filter_eq_self.mpr (fun e he => by simpa using h e he)
  induction t with
  | nil => simp [tableInsert, tableErase]
  | cons e t ih =>
    obtain ⟨k', v'⟩ := e
    have h1 : k' ≠ k := h _ (List.mem_cons_self ..)
    by_cases h3 : k < k'
    · rw [tableInsert, if_pos h3]
      simpa [tableErase] using ht
    · have h2 : ∀ e ∈ t, e.1 ≠ k := fun e he => h e (List.mem_cons_of_mem _ he)
      have := ih h2 (List.filter_eq_self.mpr (fun e he => by simpa using h2 e he))
      rw [tableInsert, if_neg h3]
      simpa [tableErase, h1] using this

omit [DecidableEq α] in
theorem erase_erase (t : Table α) (k : Nat) : tableErase (tableErase t k) k = tableErase t k := by
  simp [tableErase, List.filter_filter]

@[simp] theorem tableSet_set (d : α) (t : Table α) (k : Nat) (a b : α) :
    tableSet d (tableSet d t k a) k b = tableSet d t k b := by
  have h : tableErase (tableSet d t k a) k = tableErase t k := by
    unfold tableSet
    split
    · exact erase_erase t k
    · exact erase_insert _ k a (erase_no_key t k)
  unfold tableSet at *
  rw [h]

/-! ## Records of the state after an update of their own table -/

namespace State

@[simp] theorem setBin_bin_same (s : State) (n : Nat) (r : Bin) : (s.setBin n r).bin n = r := by simp [bin]
theorem setBin_bin (s : State) (n m : Nat) (r : Bin) : (s.setBin n r).bin m = if m = n then r else s.bin m := by
  simp [bin, tableGet_set]
@[simp] theorem setCell_cell_same (s : State) (n : Nat) (r : Cell) : (s.setCell n r).cell n = r := by simp [cell]
theorem setCell_cell (s : State) (n m : Nat) (r : Cell) : (s.setCell n r).cell m = if m = n then r else s.cell m := by
  simp [cell, tableGet_set]
@[simp] theorem setBay_bay_same (s : State) (st : Station) (b : Nat) (r : Bay) : (s.setBay st b r).bay st b = r := by
  simp [bay]
theorem setBay_bay_ne (s : State) (st st' : Station) (b b' : Nat) (r : Bay) (h : (st', b') ≠ (st, b)) :
    (s.setBay st b r).bay st' b' = s.bay st' b' := by
  have : bayIndex st' b' ≠ bayIndex st b := by
    intro e
    apply h
    cases st <;> cases st' <;> simp [bayIndex, stationCode] at e ⊢ <;> omega
  simp [bay, tableGet_set_ne _ _ _ this]
@[simp] theorem setSlot_slot_same (s : State) (i : Nat) (r : Slot) : (s.setSlot i r).slot i = r := by simp [slot]
theorem setSlot_slot (s : State) (i m : Nat) (r : Slot) : (s.setSlot i r).slot m = if m = i then r else s.slot m := by
  simp [slot, tableGet_set]
@[simp] theorem setSeg_seg_same (s : State) (n : Nat) (r : Segment) : (s.setSeg n r).seg n = r := by simp [seg]
theorem setSeg_seg (s : State) (n m : Nat) (r : Segment) : (s.setSeg n r).seg m = if m = n then r else s.seg m := by
  simp [seg, tableGet_set]
@[simp] theorem setLoop_loop_same (s : State) (z : Nat) (r : Loop) : (s.setLoop z r).loop z = r := by simp [loop]
theorem setLoop_loop (s : State) (z m : Nat) (r : Loop) : (s.setLoop z r).loop m = if m = z then r else s.loop m := by
  simp [loop, tableGet_set]
@[simp] theorem setZone_zone_same (s : State) (z : Nat) (r : Zone) : (s.setZone z r).zone z = r := by simp [zone]
theorem setZone_zone (s : State) (z m : Nat) (r : Zone) : (s.setZone z r).zone m = if m = z then r else s.zone m := by
  simp [zone, tableGet_set]
@[simp] theorem setShutter_shutter_same (s : State) (k : Nat) (r : Shutter) : (s.setShutter k r).shutter k = r := by
  simp [shutter]
theorem setShutter_shutter (s : State) (k m : Nat) (r : Shutter) :
    (s.setShutter k r).shutter m = if m = k then r else s.shutter m := by
  simp [shutter, tableGet_set]
@[simp] theorem setGen_gen_same (s : State) (k : Nat) (r : GenPhase) : (s.setGen k r).gen k = r := by simp [gen]
theorem setGen_gen (s : State) (k m : Nat) (r : GenPhase) : (s.setGen k r).gen m = if m = k then r else s.gen m := by
  simp [gen, tableGet_set]
@[simp] theorem setLine_line_same (s : State) (n : Nat) (r : Source) : (s.setLine n r).line n = r := by simp [line]
theorem setLine_line (s : State) (n m : Nat) (r : Source) : (s.setLine n r).line m = if m = n then r else s.line m := by
  simp [line, tableGet_set]

@[simp] theorem setBin_setBin (s : State) (n : Nat) (a b : Bin) : (s.setBin n a).setBin n b = s.setBin n b := by
  simp [setBin]
@[simp] theorem setCell_setCell (s : State) (n : Nat) (a b : Cell) : (s.setCell n a).setCell n b = s.setCell n b := by
  simp [setCell]
@[simp] theorem setBay_setBay (s : State) (st : Station) (n : Nat) (a b : Bay) :
    (s.setBay st n a).setBay st n b = s.setBay st n b := by simp [setBay]
@[simp] theorem setSlot_setSlot (s : State) (n : Nat) (a b : Slot) : (s.setSlot n a).setSlot n b = s.setSlot n b := by
  simp [setSlot]
@[simp] theorem setSeg_setSeg (s : State) (n : Nat) (a b : Segment) : (s.setSeg n a).setSeg n b = s.setSeg n b := by
  simp [setSeg]
@[simp] theorem setZone_setZone (s : State) (n : Nat) (a b : Zone) : (s.setZone n a).setZone n b = s.setZone n b := by
  simp [setZone]
@[simp] theorem setShutter_setShutter (s : State) (n : Nat) (a b : Shutter) :
    (s.setShutter n a).setShutter n b = s.setShutter n b := by simp [setShutter]
@[simp] theorem setCrane_setCrane (s : State) (c : Crane) (a b : CraneRec) :
    (s.setCrane c a).setCrane c b = s.setCrane c b := by cases c <;> rfl
@[simp] theorem setPort_setPort (s : State) (p : Port) (a b : LinkPort) : (s.setPort p a).setPort p b = s.setPort p b := by
  cases p <;> rfl

end State

end Sys2Proof.Machine
end

