-- ==== Sys2Proof/Laws/Moves.lean ====
section
/-! SUPPORT. What one step can do to the state, said once: `Move` lists the primitive changes, and every command is a sequence
of them (`exec_moves`, `step_moves` in `Laws/Steps.lean`). A property that every move keeps, every step keeps. -/

namespace Sys2Proof.Machine

/-- The drive permit's inputs, the trip record and the last touched segments of a crane record stand as they were (R101, R102,
R104). -/
structure SamePermit (a b : CraneRec) : Prop where
  ref : b.ref.isSome = a.ref.isSome
  latched : b.tripLatched = a.tripLatched
  first : b.tripFirst = a.tripFirst
  causes : b.tripCauses = a.tripCauses
  keepalive : b.keepalive = a.keepalive
  creep : b.creep = a.creep
  permit : b.permit = a.permit
  touchFirst : b.touchFirst = a.touchFirst
  touchLast : b.touchLast = a.touchLast

/-- A new envelope with its envelope check: the ENVELOPE trip of a crane whose touched segments it does not hold (R101 steps 1
and 2). -/
def State.takeEnvelope (s : State) (c : Crane) : State :=
  let t := s.sampleEnvelope c
  if t.touchedHeld c || (t.crane c).hasTrip .envelope then t
  else (t.setCrane c ((t.crane c).withTrip .envelope)).refreshPermit c

/-- What an event can do to a link port (chapter 10). -/
inductive PortMove : LinkPort → LinkPort → Prop where
  | offer (q : LinkPort) (n : Notice) : PortMove q (q.offer n)
  | pump (q : LinkPort) : PortMove q q.pump
  | respond (q : LinkPort) (m : Message) : PortMove q { q with slot := some m }
  | takeItem (q : LinkPort) : PortMove q q.takeItem
  | complete (q : LinkPort) (m : Partial) (c : RxChar) (rest : List RxChar) (h : q.fifo = c :: rest) :
      PortMove q (q.complete m c rest)
  | overlength (q : LinkPort) (m : Partial) (c : RxChar) (rest : List RxChar) (h : q.fifo = c :: rest) :
      PortMove q (q.overlength m rest)
  | takeBreak (q : LinkPort) : PortMove q q.takeBreak
  | breakEnd (q : LinkPort) : PortMove q { q with afterBreak := false }
  | noise (q : LinkPort) (v : Bool) : PortMove q (q.noteNoise v)
  | arrive (q : LinkPort) (f : RxFrame) : PortMove q (q.arrive f).assemble
  | clearFlags (q : LinkPort) : PortMove q { q with flags := .clear }
  | stop (q : LinkPort) : PortMove q { q with stopped := true }
  | sent (q : LinkPort) : PortMove q { q with sending := none }

/-- The primitive changes of the state. -/
inductive Move : State → State → Prop where
  | bin (s : State) (n : Nat) (r : Bin) : Move s (s.setBin n r)
  | cell (s : State) (n : Nat) (r : Cell) : Move s (s.setCell n r)
  | bay (s : State) (st : Station) (b : Nat) (r : Bay) : Move s (s.setBay st b r)
  | slot (s : State) (i : Nat) (r : Slot) : Move s (s.setSlot i r)
  | counter (s : State) (n : BitVec 32) : Move s (s.setCounter n)
  | sched (s : State) (r : Scheduler) (h : SettingsSound s → SchedSound s → SchedSound (s.setSched r)) : Move s (s.setSched r)
  | loop (s : State) (z : Nat) (r : Loop) : Move s (s.setLoop z r)
  | zone (s : State) (z : Nat) (r : Zone) (h : ZoneSound (s.zone z) → ZoneSound r) : Move s (s.setZone z r)
  | shutter (s : State) (k : Nat) (r : Shutter) (h : ShutterSound (s.shutter k) → ShutterSound r) : Move s (s.setShutter k r)
  | manual (s : State) (v : Bool) : Move s (s.setManual v)
  | gen (s : State) (k : Nat) (r : GenPhase) : Move s (s.setGen k r)
  | param (s : State) (q : Param) (v : Nat) (hc : codedOk q v = true) (ht : s.thresholdsOk q (valueTaken q v) = true) :
      Move s ((s.putParam q (valueTaken q v)).paramEffect q)
  | rsv (s : State) (c : Crane) (lo hi : Nat) (h : hi < 42) : Move s (s.rsv c lo hi).1
  | rel (s : State) (c : Crane) (lo hi : Nat) (h : hi < 42) : Move s (s.rel c lo hi).1
  | frel (s : State) (c : Crane) (lo hi : Nat) (h : hi < 42) : Move s (s.frel c lo hi).1
  | sealZone (s : State) (z : Nat) : Move s (s.sealZone z)
  | unsealZone (s : State) (z : Nat) : Move s (s.unsealZone z)
  | trip (s : State) (c : Crane) (x : TripCause) : Move s ((s.setCrane c ((s.crane c).withTrip x)).refreshPermit c)
  | unreference (s : State) (c : Crane) : Move s (s.unreference c)
  | home (s : State) (c : Crane) : Move s (s.captureHome c)
  | keepalive (s : State) (c : Crane) (w : Window) (k : KeepaliveState) : Move s (s.setKeepalive c w k)
  | restart (s : State) (c : Crane) : Move s (s.restartKeepalive c)
  | creep (s : State) (c : Crane) (v : Bool) : Move s (s.setCreep c v)
  | clearTrip (s : State) (c : Crane) (h : s.clrtRefusal c = none) : Move s (s.clearTrip c)
  | envelope (s : State) (c : Crane) : Move s (s.takeEnvelope c)
  | refresh (s : State) (c : Crane) : Move s (s.refreshPermit c)
  | crane (s : State) (c : Crane) (r : CraneRec) (h : SamePermit (s.crane c) r) : Move s (s.setCrane c r)
  | port (s : State) (p : Port) (q : LinkPort) (h : PortMove (s.port p) q) : Move s (s.setPort p q)
  | power (s : State) (x : Power) : Move s (s.setPower x)
  | coldStart (s : State) (x : ColdStart) : Move s (s.setColdStart x)
  | warm (s : State) (l : StartLevels) : Move s (s.warmStart l)
  | cold (s : State) (l : StartLevels) : Move s (s.coldStartAt l)
  | elapse (s : State) : Move s s.elapse

/-- A sequence of moves. -/
abbrev Moves : State → State → Prop := Relation.ReflTransGen Move

theorem Moves.snoc {s t u : State} (h : Moves s t) (m : Move t u) : Moves s u := Relation.ReflTransGen.tail h m

/-- A property that every move keeps, a sequence of moves keeps. -/
theorem Moves.keeps {P : State → Prop} (hP : ∀ s t, Move s t → P s → P t) {s t : State} (h : Moves s t) (hs : P s) :
    P t := by
  induction h with
  | refl => exact hs
  | tail _ m ih => exact hP _ _ m ih

/-- A fold whose steps are sequences of moves is one. -/
theorem Moves.foldl {α : Type} {f : State → α → State} (hf : ∀ (s t : State) (a : α), Moves s t → Moves s (f t a))
    (l : List α) {s t : State} (h : Moves s t) : Moves s (l.foldl f t) := by
  induction l generalizing t with
  | nil => exact h
  | cons a l ih => exact ih (hf _ _ _ h)

/-- A parameter is held in the settings, or among the line sources: nothing else changes (R202). -/
theorem putParam_eq (s : State) (q : Param) (v : Nat) :
    ∃ st ls, s.putParam q v = { s with settings := st, lines := ls } := by
  cases q with
  | crane c r => cases c <;> exact ⟨_, _, rfl⟩
  | _ => exact ⟨_, _, rfl⟩

end Sys2Proof.Machine
end

