-- ==== Sys2Proof/Laws/Orders.lean ====
section
/-! SUPPORT. What each step of the end of an order does (R55): which tables it reaches, and what it leaves in them. -/

namespace Sys2Proof.Machine

theorem setCrane_crane (s : State) (c x : Crane) (r : CraneRec) :
    (s.setCrane c r).crane x = if x = c then r else s.crane x := by
  cases c <;> cases x <;> rfl

theorem setBay_bay (s : State) (st st' : Station) (b b' : Nat) (r : Bay) :
    (s.setBay st b r).bay st' b' = if (st', b') = (st, b) then r else s.bay st' b' := by
  split
  · next h => cases h; simp
  · next h => exact State.setBay_bay_ne _ _ _ _ _ _ h

/-! ## The tables each step reaches -/

theorem unbindBin_frame (s : State) (x : Option Nat) : ∃ v, s.unbindBin x = { s with bins := v } := by
  cases x <;> exact ⟨_, rfl⟩

theorem endReservation_frame (s : State) (o : Order) (h : Handle) : ∃ v, s.endReservation o h = { s with cells := v } := by
  unfold State.endReservation State.releaseDest State.releaseCell
  split
  · split
    · split <;> exact ⟨_, rfl⟩
    · exact ⟨_, rfl⟩
  · exact ⟨_, rfl⟩

theorem endBay_frame (s : State) (o : Order) (h : Handle) : ∃ v, s.endBay o h = { s with bays := v } := by
  unfold State.endBay
  split <;> (try split) <;> (try split) <;> exact ⟨_, rfl⟩

theorem endPicks_frame (s : State) (o : Order) : ∃ v, s.endPicks o = { s with bins := v } := by
  unfold State.endPicks
  split
  · split <;> exact ⟨_, rfl⟩
  · exact ⟨_, rfl⟩

theorem endCrane_frame (s : State) (o : Order) (h : Handle) (f : FinalState) :
    ∃ a b, s.endCrane o h f = { s with craneA := a, craneB := b } := by
  unfold State.endCrane
  dsimp only
  split
  · cases o.crane <;> exact ⟨_, _, rfl⟩
  · exact ⟨_, _, rfl⟩

theorem endNotice_frame (s : State) (o : Order) (h : Handle) (x : Option EndOutcome) :
    ∃ q, s.endNotice o h x = { s with portC := q } := by
  unfold State.endNotice
  split
  · exact ⟨_, rfl⟩
  · split <;> exact ⟨_, rfl⟩

/-! ## What each step leaves -/

theorem unbindBin_bin (s : State) (x : Option Nat) (b : Nat) :
    (s.unbindBin x).bin b = if x = some b then { s.bin b with order := none } else s.bin b := by
  cases x with
  | none => simp [State.unbindBin]
  | some n =>
    simp only [State.unbindBin, State.setBin_bin, Option.some.injEq]
    by_cases h : b = n
    · simp [h]
    · simp [h, Ne.symm h]

theorem releaseCell_cell (s : State) (n m : Nat) (h : Handle) :
    (s.releaseCell n h).cell m =
      if m = n ∧ (s.cell m).state = .reserved h then ⟨.empty, (s.cell m).stamp, 0⟩ else s.cell m := by
  unfold State.releaseCell State.cellTo Cell.toState
  by_cases e : m = n
  · subst e
    split <;> simp_all
  · split <;> simp [State.setCell_cell, e]

theorem endReservation_cell (s : State) (o : Order) (h : Handle) (m : Nat) :
    (s.endReservation o h).cell m =
      if o.kind.stows = true ∧ o.destCell = some m ∧ (s.cell m).state = .reserved h then ⟨.empty, (s.cell m).stamp, 0⟩
      else s.cell m := by
  unfold State.endReservation State.releaseDest
  by_cases hk : o.kind.stows = true
  · rw [if_pos hk]
    cases hd : o.destCell with
    | none => simp
    | some n =>
      simp only [releaseCell_cell, hk, true_and, Option.some.injEq]
      by_cases e : m = n
      · simp [e]
      · simp [e, Ne.symm e]
  · rw [if_neg hk]
    simp [hk]

theorem endBay_bay (s : State) (o : Order) (h : Handle) (st : Station) (b : Nat) :
    (s.endBay o h).bay st b =
      if o.kind = .fetch ∧ o.dest = some (.station st) ∧ o.destBay = some b ∧ (s.bay st b).state = .inbound h then .cold
      else if (o.kind = .stow ∨ o.kind = .move) ∧ o.source = .bay st b ∧
          o.bin.map BayState.outbound = some (s.bay st b).state then
        { s.bay st b with state := .occupied (o.bin.getD 0) }
      else s.bay st b := by
  unfold State.endBay
  cases hk : o.kind with
  | fetch =>
    simp only [true_and, reduceCtorEq, or_self, false_and, if_false]
    split
    · next st' b' h1 h2 =>
      by_cases e : (st, b) = (st', b')
      · cases e
        split <;> simp_all [State.emptyBay]
      · have e' : ¬(st' = st ∧ b' = b) := fun ⟨x, y⟩ => e (by rw [x, y])
        split
        · rw [State.emptyBay, State.setBay_bay_ne _ _ _ _ _ _ e, if_neg]
          rintro ⟨x, y, -⟩
          rw [h1] at x
          rw [h2] at y
          cases x
          cases y
          exact e rfl
        · rw [if_neg]
          rintro ⟨x, y, -⟩
          rw [h1] at x
          rw [h2] at y
          cases x
          cases y
          exact e rfl
    · next h1 =>
      rw [if_neg]
      rintro ⟨x, y, -⟩
      exact h1 _ _ x y
  | verify => simp
  | stow | move =>
    simp only [reduceCtorEq, false_and, if_false, true_or, or_true, true_and]
    split
    · next st' b' n h1 h2 =>
      simp only [h1, h2, Option.map_some, Option.some.injEq, Place.bay.injEq, Option.getD_some]
      by_cases e : (st, b) = (st', b')
      · cases e
        by_cases hs : (s.bay st b).state = .outbound n
        · simp [hs, State.bayTo]
        · simp [hs, Ne.symm hs]
      · have e' : ¬((st' = st ∧ b' = b) ∧ BayState.outbound n = (s.bay st b).state) :=
          fun ⟨⟨x, y⟩, _⟩ => e (by rw [x, y])
        rw [if_neg e']
        split
        · rw [State.bayTo, State.setBay_bay_ne _ _ _ _ _ _ e]
        · rfl
    · next h1 =>
      rw [if_neg]
      rintro ⟨x, y⟩
      cases hb : o.bin with
      | none => simp [hb] at y
      | some n => exact h1 _ _ _ x hb

theorem endPicks_bin (s : State) (o : Order) (b : Nat) :
    (s.endPicks o).bin b =
      if o.bin = some b ∧ o.kind = .fetch ∧ (s.bin b).place.isAtBay = false then (s.bin b).revertPicks else s.bin b := by
  unfold State.endPicks
  split
  · next n h1 h2 =>
    simp only [h1, h2, Option.some.injEq, true_and]
    by_cases e : b = n
    · subst e
      split <;> simp_all
    · split <;> simp [State.setBin_bin, e, Ne.symm e]
  · next h1 =>
    rw [if_neg]
    rintro ⟨x, y, -⟩
    exact h1 _ y x

theorem endCrane_crane (s : State) (o : Order) (h : Handle) (f : FinalState) (c : Crane) :
    (s.endCrane o h f).crane c =
      if c = o.crane ∧ (s.crane c).active = some h then
        { s.crane c with
          active := none
          lastCompleted := some h
          orphan := (s.crane c).orphan || decide (o.state = .loaded ∧ f ≠ .complete) }
      else s.crane c := by
  unfold State.endCrane
  dsimp only
  by_cases e : c = o.crane
  · subst e
    by_cases h1 : (s.crane o.crane).active = some h
    · rw [if_pos h1, if_pos (show o.crane = o.crane ∧ _ from ⟨rfl, h1⟩), setCrane_crane, if_pos rfl]
      congr 1
      by_cases h2 : o.state = .loaded ∧ f ≠ .complete
      · simp [h2]
      · simp [h2]
    · rw [if_neg h1, if_neg (fun x : o.crane = o.crane ∧ _ => h1 x.2)]
  · rw [if_neg (fun x : c = o.crane ∧ _ => e x.1)]
    by_cases h1 : (s.crane o.crane).active = some h
    · rw [if_pos h1, setCrane_crane, if_neg e]
    · rw [if_neg h1]

end Sys2Proof.Machine
end

