-- ==== Sys2Proof/Laws/PerInstr.lean ====
section
/-! SUPPORT. Claims about every command as syntax, one lemma for each constructor. -/

namespace Sys2Proof.Laws.WireForm

open Sys2Proof Sys2Proof.Machine

/-- A command that is a request is of a kind whose code reads back as that kind (R191); an event has no body on the link. -/
def Statement (i : Instr) : Prop :=
  (requestOf i = none → requestBody i = []) ∧ ∀ p k, requestOf i = some (p, k) → kindOfCode (kindCode k) = some k

/-- A request of a kind whose code reads back. -/
theorem of_request {i : Instr} {p : Port} {k : Kind} (h : requestOf i = some (p, k))
    (hk : kindOfCode (kindCode k) = some k) : Statement i :=
  ⟨fun n => absurd (h.symm.trans n) (by simp), fun _ _ e => by rw [h] at e; cases e; exact hk⟩

/-- An event without a body. -/
theorem of_event {i : Instr} (h : requestOf i = none) (hb : requestBody i = []) : Statement i :=
  ⟨fun _ => hb, fun _ _ e => by rw [h] at e; cases e⟩

theorem stat (p : Port) : Statement (.stat p) := of_request rfl rfl

theorem rdbin (p : Port) (bin : Nat) : Statement (.rdbin p bin) := of_request rfl rfl

theorem rdcell (p : Port) (cell : Nat) : Statement (.rdcell p cell) := of_request rfl rfl

theorem rdord (p : Port) (slot gen : Nat) : Statement (.rdord p slot gen) := of_request rfl rfl

theorem rdcrn (p : Port) (crane : Nat) : Statement (.rdcrn p crane) := of_request rfl rfl

theorem rdseg (p : Port) (segment : Nat) : Statement (.rdseg p segment) := of_request rfl rfl

theorem rdzone (p : Port) (read : ZoneRead) : Statement (.rdzone p read) := of_request rfl rfl

theorem fetch (p : Port) (bin station : Nat) (picks : List Nat) (loan : BitVec 32) (authority : Nat) : Statement (.fetch p bin station picks loan authority) := of_request rfl rfl

theorem pick (p : Port) (bin compartment : Nat) : Statement (.pick p bin compartment) := of_request rfl rfl

theorem unpick (p : Port) (bin compartment : Nat) : Statement (.unpick p bin compartment) := of_request rfl rfl

theorem slot (p : Port) (station : Nat) : Statement (.slot p station) := of_request rfl rfl

theorem place (p : Port) (bin compartment : Nat) : Statement (.place p bin compartment) := of_request rfl rfl

theorem unclaim (p : Port) (bin compartment : Nat) : Statement (.unclaim p bin compartment) := of_request rfl rfl

theorem relbay (p : Port) (station bay : Nat) : Statement (.relbay p station bay) := of_request rfl rfl

theorem cancel (p : Port) (slot gen : Nat) : Statement (.cancel p slot gen) := of_request rfl rfl

theorem cancelOnPortS (slot gen : Nat) : Statement (.cancelOnPortS slot gen) := of_request rfl rfl

theorem nextWork (p : Port) (level : Nat) : Statement (.nextWork p level) := of_request rfl rfl

theorem load (p : Port) (slot gen : Nat) : Statement (.load p slot gen) := of_request rfl rfl

theorem done (p : Port) (slot gen : Nat) (cell : Option Nat) : Statement (.done p slot gen cell) := of_request rfl rfl

theorem unable (p : Port) (slot gen reason : Nat) (cell : Option Nat) : Statement (.unable p slot gen reason cell) := of_request rfl rfl

theorem tag (p : Port) (slot gen : Nat) (result : TagResult) : Statement (.tag p slot gen result) := of_request rfl rfl

theorem rsv (p : Port) (lo hi : Nat) : Statement (.rsv p lo hi) := of_request rfl rfl

theorem rel (p : Port) (lo hi : Nat) : Statement (.rel p lo hi) := of_request rfl rfl

theorem clrt (p : Port) : Statement (.clrt p) := of_request rfl rfl

theorem keep (p : Port) (code : Nat) : Statement (.keep p code) := of_request rfl rfl

theorem assign (p : Port) (bin : Nat) (cell : Option Nat) : Statement (.assign p bin cell) := of_request rfl rfl

theorem clrsus (p : Port) (cell : Nat) : Statement (.clrsus p cell) := of_request rfl rfl

theorem block (p : Port) (cell : Nat) : Statement (.block p cell) := of_request rfl rfl

theorem unblk (p : Port) (cell : Nat) : Statement (.unblk p cell) := of_request rfl rfl

theorem quar (p : Port) (bin : Nat) : Statement (.quar p bin) := of_request rfl rfl

theorem unquar (p : Port) (bin : Nat) : Statement (.unquar p bin) := of_request rfl rfl

theorem setcmp (p : Port) (bin : Nat) (states : List Nat) : Statement (.setcmp p bin states) := of_request rfl rfl

theorem move (p : Port) (bin cell authority : Nat) : Statement (.move p bin cell authority) := of_request rfl rfl

theorem frel (p : Port) (crane lo hi : Nat) : Statement (.frel p crane lo hi) := of_request rfl rfl

theorem stop (p : Port) (crane : Nat) : Statement (.stop p crane) := of_request rfl rfl

theorem creep (p : Port) (crane : Nat) : Statement (.creep p crane) := of_request rfl rfl

theorem crend (p : Port) (crane : Nat) : Statement (.crend p crane) := of_request rfl rfl

theorem whold (p : Port) (zones : List Nat) : Statement (.whold p zones) := of_request rfl rfl

theorem wres (p : Port) : Statement (.wres p) := of_request rfl rfl

theorem frst (p : Port) (zone : Nat) : Statement (.frst p zone) := of_request rfl rfl

theorem sopen (p : Port) (shutter : Nat) : Statement (.sopen p shutter) := of_request rfl rfl

theorem setParam (p : Port) (parameter value : Nat) : Statement (.setParam p parameter value) := of_request rfl rfl

theorem rstrt (p : Port) : Statement (.rstrt p) := of_request rfl rfl

theorem assemblerRefusal (p : Port) : Statement (.assemblerRefusal p) := of_event rfl rfl

theorem unknownKind (p : Port) : Statement (.unknownKind p) := of_event rfl rfl

theorem messageComplete (p : Port) : Statement (.messageComplete p) := of_event rfl rfl

theorem overlengthMessage (p : Port) : Statement (.overlengthMessage p) := of_event rfl rfl

theorem lineBreak (p : Port) : Statement (.lineBreak p) := of_event rfl rfl

theorem transmitComplete (e : MessageEnd) : Statement (.transmitComplete e) := of_event rfl rfl

theorem positionSample (c : Crane) : Statement (.positionSample c) := of_event rfl rfl

theorem inputExcursion (c : Crane) (input : EncInput) (level : Bool) : Statement (.inputExcursion c input level) := of_event rfl rfl

theorem filterWindow (c : Crane) (which : FilterEnd) : Statement (.filterWindow c which) := of_event rfl rfl

theorem keepaliveExpiry (c : Crane) : Statement (.keepaliveExpiry c) := of_event rfl rfl

theorem progressTimerExpiry (slot : Fin 64) : Statement (.progressTimerExpiry slot) := of_event rfl rfl

theorem verificationIntervalExpiry : Statement .verificationIntervalExpiry := of_event rfl rfl

theorem loopSample (zone : Fin 4) (value : Nat) (manualRelease : Bool) : Statement (.loopSample zone value manualRelease) := of_event rfl rfl

theorem clearanceTimerExpiry (zone : Fin 4) : Statement (.clearanceTimerExpiry zone) := of_event rfl rfl

theorem travelTimerExpiry (shutter : Fin 3) : Statement (.travelTimerExpiry shutter) := of_event rfl rfl

theorem limitEdge (shutter : Fin 3) (input : LimitSwitch) (level : Bool) : Statement (.limitEdge shutter input level) := of_event rfl rfl

theorem fireResetInput : Statement .fireResetInput := of_event rfl rfl

theorem generatorTick : Statement .generatorTick := of_event rfl rfl

theorem powerOn : Statement .powerOn := of_event rfl rfl

theorem lossOfMainSupply : Statement .lossOfMainSupply := of_event rfl rfl

theorem resetAsserted : Statement .resetAsserted := of_event rfl rfl

theorem resetReleased (retentionValid : Bool) (levels : StartLevels) : Statement (.resetReleased retentionValid levels) := of_event rfl rfl

theorem characterReceived (p : Port) (frame : RxFrame) : Statement (.characterReceived p frame) := of_event rfl rfl

theorem breakEnd (p : Port) : Statement (.breakEnd p) := of_event rfl rfl

end Sys2Proof.Laws.WireForm
end

