-- ==== Sys2Proof/Laws/Rail.lean ====
section
/-! SUPPORT. What RSV, REL, FREL, sealing and unsealing do to the segments (chapter 6). -/

namespace Sys2Proof.Machine

/-- A fold keeps what each of its steps keeps. -/
theorem foldl_keeps {α : Type} {P : State → Prop} {f : State → α → State} (h : ∀ s a, P s → P (f s a)) (l : List α)
    {s : State} (hs : P s) : P (l.foldl f s) := by
  induction l generalizing s with
  | nil => exact hs
  | cons a l ih => exact ih (h s a hs)

/-- A fold leaves what each of its steps leaves. -/
theorem foldl_leaves {α β : Type} (g : State → β) {f : State → α → State} (h : ∀ s a, g (f s a) = g s) (l : List α)
    (s : State) : g (l.foldl f s) = g s := by
  induction l generalizing s with
  | nil => rfl
  | cons a l ih => exact (ih _).trans (h s a)

/-- RSV is refused and changes nothing, or passes its six checks and is granted (R115, R116). -/
theorem rsv_cases (s : State) (c : Crane) (lo hi : Nat) :
    (∃ r d, s.rsv c lo hi = (s, .nak r d)) ∨
      (lo ≤ hi ∧ s.rsvConflict c lo hi = none ∧ s.rsvSealed c lo hi = none ∧ s.rsvOneRun c lo hi = true ∧
        s.rsvOrder c (s.rsvUnion c lo hi).1 (s.rsvUnion c lo hi).2 = none ∧
        s.rsvBarrier (s.rsvUnion c lo hi).1 (s.rsvUnion c lo hi).2 = none ∧
        s.rsv c lo hi = (s.grant c lo hi, .ack (heldFields ((s.grant c lo hi).holdingEnds c)))) := by
  unfold State.rsv refuse refuseDetail
  split
  · exact .inl ⟨_, _, rfl⟩
  · next h1 =>
    split
    · exact .inl ⟨_, _, rfl⟩
    · next h2 =>
      split
      · exact .inl ⟨_, _, rfl⟩
      · next h3 =>
        split
        · exact .inl ⟨_, _, rfl⟩
        · next h4 =>
          split
          · exact .inl ⟨_, _, rfl⟩
          · next h5 =>
            split
            · exact .inl ⟨_, _, rfl⟩
            · next h6 => exact .inr ⟨not_lt.mp h1, h2, h3, by simpa using h4, h5, h6, rfl⟩

/-- REL is refused and changes nothing, or passes its five checks and is applied (R118, R119). -/
theorem rel_cases (s : State) (c : Crane) (lo hi : Nat) :
    (∃ r d, s.rel c lo hi = (s, .nak r d)) ∨
      (lo ≤ hi ∧ s.notOwned c lo hi = none ∧ s.leavesRun c lo hi = true ∧ s.touchedIn c lo hi = none ∧
        s.strandsEnd c lo hi = false ∧
        s.rel c lo hi = (s.release c lo hi, .ack (holdingFields ((s.release c lo hi).holdingEnds c)))) := by
  unfold State.rel refuse refuseDetail
  split
  · exact .inl ⟨_, _, rfl⟩
  · next h1 =>
    split
    · exact .inl ⟨_, _, rfl⟩
    · next h2 =>
      split
      · exact .inl ⟨_, _, rfl⟩
      · next h3 =>
        split
        · exact .inl ⟨_, _, rfl⟩
        · next h4 =>
          split
          · exact .inl ⟨_, _, rfl⟩
          · next h5 => exact .inr ⟨not_lt.mp h1, h2, by simpa using h3, h4, by simpa using h5, rfl⟩

/-- FREL is refused and changes nothing, or passes its five checks and is applied (R122). -/
theorem frel_cases (s : State) (c : Crane) (lo hi : Nat) :
    (∃ r d, s.frel c lo hi = (s, .nak r d)) ∨
      (lo ≤ hi ∧ (s.crane c).permit = false ∧ s.notOwned c lo hi = none ∧ s.leavesRun c lo hi = true ∧
        s.touchedIn c lo hi = none ∧
        s.frel c lo hi = (s.release c lo hi, .ack (holdingFields ((s.release c lo hi).holdingEnds c)))) := by
  unfold State.frel refuse refuseDetail
  split
  · exact .inl ⟨_, _, rfl⟩
  · next h1 =>
    split
    · exact .inl ⟨_, _, rfl⟩
    · next h2 =>
      split
      · exact .inl ⟨_, _, rfl⟩
      · next h3 =>
        split
        · exact .inl ⟨_, _, rfl⟩
        · next h4 =>
          split
          · exact .inl ⟨_, _, rfl⟩
          · next h5 => exact .inr ⟨not_lt.mp h1, by simpa using h2, h3, by simpa using h4, h5, rfl⟩

/-! ## The segments after each operation -/

theorem mem_upTo (lo hi n : Nat) : n ∈ upTo lo hi ↔ lo ≤ n ∧ n ≤ hi := by
  simp only [upTo, List.mem_range']
  constructor
  · rintro ⟨i, hi, rfl⟩
    omega
  · rintro ⟨h1, h2⟩
    exact ⟨n - lo, by omega, by omega⟩

/-- A fold of segment updates, each of which reads its own segment alone and says twice what it says once, leaves each listed
segment updated and every other as it was. -/
theorem fold_seg {f : State → Nat → State} {g : Segment → Segment}
    (hf : ∀ s n m, (f s n).seg m = if m = n then g (s.seg m) else s.seg m) (hg : ∀ x, g (g x) = g x) (l : List Nat)
    (s : State) (m : Nat) : (l.foldl f s).seg m = if m ∈ l then g (s.seg m) else s.seg m := by
  induction l generalizing s with
  | nil => simp
  | cons a l ih =>
    rw [List.foldl_cons, ih, hf]
    by_cases h1 : m = a <;> by_cases h2 : m ∈ l <;> simp [h1, h2, hg]

/-- The segment as RSV grants it to crane X (R116). -/
def grantedSeg (c : Crane) (x : Segment) : Segment := if x.holder = none then { x with holder := some c } else x

/-- The segment as a release leaves it (R119). -/
def freedSeg (x : Segment) : Segment := { holder := none, sealState := releasedSeal x.sealState }

/-- The segment as sealing leaves it (R124). -/
def closedSeg (x : Segment) : Segment :=
  { x with sealState := if x.holder = none then .sealed else .sealPending }

/-- The segment as unsealing leaves it (R125). -/
def openedSeg (x : Segment) : Segment :=
  { holder := if x.sealState = .sealed then none else x.holder, sealState := .open }

theorem grantSeg_seg (c : Crane) (s : State) (n m : Nat) :
    (s.grantSeg c n).seg m = if m = n then grantedSeg c (s.seg m) else s.seg m := by
  unfold State.grantSeg grantedSeg
  by_cases h : m = n
  · subst h
    split <;> simp
  · split <;> simp [State.setSeg_seg, h]

theorem grant_seg (s : State) (c : Crane) (lo hi m : Nat) :
    (s.grant c lo hi).seg m = if lo ≤ m ∧ m ≤ hi then grantedSeg c (s.seg m) else s.seg m := by
  unfold State.grant State.refreshPermit
  rw [State.setCrane_seg, fold_seg (g := grantedSeg c) (fun s n m => grantSeg_seg c s n m)]
  · simp [mem_upTo]
  · intro x
    unfold grantedSeg
    split <;> simp

theorem release_seg (s : State) (c : Crane) (lo hi m : Nat) :
    (s.release c lo hi).seg m = if lo ≤ m ∧ m ≤ hi then freedSeg (s.seg m) else s.seg m := by
  unfold State.release State.refreshPermit
  rw [State.setCrane_seg, fold_seg (g := freedSeg)]
  · simp [mem_upTo]
  · intro s n m
    unfold State.releaseSeg freedSeg
    rw [State.setSeg_seg]
    split
    · next h => rw [h]
    · rfl
  · rintro ⟨h, x⟩
    cases x <;> rfl

theorem sealZone_seg (s : State) (z m : Nat) :
    (s.sealZone z).seg m = if zoneFirst z ≤ m ∧ m ≤ zoneLast z then closedSeg (s.seg m) else s.seg m := by
  unfold State.sealZone
  rw [fold_seg (g := closedSeg)]
  · simp [zoneSegments, mem_upTo]
  · intro s n m
    unfold State.sealSeg closedSeg
    rw [State.setSeg_seg]
    split
    · next h => rw [h]
    · rfl
  · rintro ⟨h, x⟩
    rfl

theorem unsealZone_seg (s : State) (z m : Nat) :
    (s.unsealZone z).seg m = if zoneFirst z ≤ m ∧ m ≤ zoneLast z then openedSeg (s.seg m) else s.seg m := by
  unfold State.unsealZone
  rw [fold_seg (g := openedSeg)]
  · simp [zoneSegments, mem_upTo]
  · intro s n m
    unfold State.unsealSeg openedSeg
    rw [State.setSeg_seg]
    split
    · next h => rw [h]
    · rfl
  · rintro ⟨h, x⟩
    cases x <;> simp [openedSeg]

/-! ## The ends of a holding -/

theorem mem_holding (s : State) (c : Crane) (n : Nat) : n ∈ s.holding c ↔ n < 42 ∧ s.holds c n = true := by
  simp [State.holding, segmentNumbers, State.holds]

theorem holding_pairwise (s : State) (c : Crane) : (s.holding c).Pairwise (· < ·) :=
  List.Pairwise.filter _ List.pairwise_lt_range

theorem holdingEnds_none (s : State) (c : Crane) : s.holdingEnds c = none ↔ ∀ n, n < 42 → s.holds c n = false := by
  have h : s.holdingEnds c = none ↔ s.holding c = [] := by
    unfold State.holdingEnds
    cases s.holding c with
    | nil => simp
    | cons a l => simp [List.getLast?_cons]
  rw [h, List.eq_nil_iff_forall_not_mem]
  simp [mem_holding]

/-- The two ends are held, and no held segment lies outside them. -/
theorem holdingEnds_some {s : State} {c : Crane} {a b : Nat} (h : s.holdingEnds c = some (a, b)) :
    (a < 42 ∧ s.holds c a = true) ∧ (b < 42 ∧ s.holds c b = true) ∧
      ∀ n, n < 42 → s.holds c n = true → a ≤ n ∧ n ≤ b := by
  have hp := holding_pairwise s c
  unfold State.holdingEnds at h
  cases hl : s.holding c with
  | nil => simp [hl] at h
  | cons x l =>
    rw [hl] at hp
    have hlast : (x :: l).getLast? = some ((x :: l).getLast (by simp)) := List.getLast?_eq_some_getLast (by simp)
    rw [hl, hlast] at h
    simp only [List.head?_cons, Option.some.injEq, Prod.mk.injEq] at h
    obtain ⟨rfl, rfl⟩ := h
    refine ⟨(mem_holding s c _).mp (hl ▸ List.mem_cons_self ..), (mem_holding s c _).mp (by rw [hl]; exact List.getLast_mem _), ?_⟩
    intro n hn hh
    have hm : n ∈ x :: l := hl ▸ (mem_holding s c n).mpr ⟨hn, hh⟩
    constructor
    · rcases List.mem_cons.mp hm with rfl | hm
      · exact le_rfl
      · exact ((List.pairwise_cons.mp hp).1 n hm).le
    · obtain ⟨i, hi, rfl⟩ := List.mem_iff_getElem.mp hm
      rw [List.getLast_eq_getElem]
      rcases Nat.lt_or_ge i ((x :: l).length - 1) with h1 | h1
      · exact (List.pairwise_iff_getElem.mp hp _ _ hi (by simp) h1).le
      · have : i = (x :: l).length - 1 := by omega
        subst this
        exact le_rfl

end Sys2Proof.Machine
end

