-- ==== Sys2Proof/Laws/Requests.lean ====
section
/-! SUPPORT. What serving a request and ending an event do: they reach the link ports and the waiting flags alone, and place
the response (R76, R197, R198). -/

namespace Sys2Proof.Machine

/-! ## Serving directly -/

theorem serve_direct {α : Type} {p : Port} {k : Kind} {read : List Byte → Except Reason α} {args : α}
    {owner : α → State → State × Reply} {a : Bool} {s : State} (h : s.serves p) :
    serve p k read args owner a s = .next (conclude s p k a (answer p k (.ok args) owner s)) := by
  obtain ⟨hr, hs, ht, hi⟩ := h
  simp [serve, served, hr, hi, LinkPort.ready, hs, ht]

theorem answer_taken {α : Type} {p : Port} {k : Kind} {args : α} {owner : α → State → State × Reply} {s : State}
    (h : portRefusal p k = none) : answer p k (.ok args) owner s = owner args s := by
  simp [answer, h]

theorem whenRunning_run {s : State} {f : State → State} (h : s.running = true) : whenRunning s f = .next (f s) := by
  simp [whenRunning, eventState, h]

/-! ## The blocks an event leaves alone -/

@[simp] theorem still_setPort (s : State) (p : Port) (q : LinkPort) : (s.setPort p q).still = s.still := by
  cases p <;> rfl

@[simp] theorem still_respond (s : State) (p : Port) (m : Message) : (s.respond p m).still = s.still :=
  still_setPort ..

@[simp] theorem still_raise (s : State) (p : Port) (n : Notice) : (s.raise p n).still = s.still := still_setPort ..

@[simp] theorem still_pump (s : State) : s.pump.still = s.still := rfl

theorem still_raiseAll (ps : List Port) (n : Notice) (s : State) : (s.raiseAll ps n).still = s.still := by
  induction ps generalizing s with
  | nil => rfl
  | cons p ps ih => exact (ih (s.raise p n)).trans (still_raise s p n)

theorem still_setWaiting (s : State) (x : Crane) (v : Bool) :
    (s.setCrane x { s.crane x with waiting := v }).still = s.still := by
  cases x <;> rfl

@[simp] theorem still_evalWaiting (s : State) (x : Crane) (c : Bool) : (s.evalWaiting x c).still = s.still := by
  unfold State.evalWaiting
  dsimp only
  split
  · rw [still_raise, still_setWaiting]
  · rfl

@[simp] theorem still_evalCranes (s t : State) (al a b : Bool) : (evalCranes s t al a b).still = t.still := by
  unfold evalCranes
  dsimp only
  split <;> split <;> simp

@[simp] theorem still_finish (s t : State) : (finish s t).still = t.still := by simp [finish]

@[simp] theorem still_conclude (s : State) (p : Port) (k : Kind) (a : Bool) (r : State × Reply) :
    (conclude s p k a r).still = r.1.still := by
  unfold conclude
  dsimp only
  split <;> simp

/-! ## The transmitters -/

/-- What `raise` and the evaluation of waiting cranes leave of a port. -/
structure PortKept (a b : LinkPort) : Prop where
  receiver : b.receiver = a.receiver
  slot : b.slot = a.slot
  sending : b.sending = a.sending

theorem PortKept.refl (q : LinkPort) : PortKept q q := ⟨rfl, rfl, rfl⟩

theorem PortKept.trans {a b c : LinkPort} (h : PortKept a b) (g : PortKept b c) : PortKept a c :=
  ⟨g.receiver.trans h.receiver, g.slot.trans h.slot, g.sending.trans h.sending⟩

theorem offer_kept (q : LinkPort) (n : Notice) : PortKept q (q.offer n) := by
  unfold LinkPort.offer
  split
  · exact ⟨rfl, rfl, rfl⟩
  · split <;> exact ⟨rfl, rfl, rfl⟩

theorem raise_kept (s : State) (p : Port) (n : Notice) (x : Port) : PortKept (s.port x) ((s.raise p n).port x) := by
  unfold State.raise
  rw [State.setPort_port]
  split
  · next h => subst h; exact offer_kept _ n
  · exact .refl _

theorem evalWaiting_kept (s : State) (c : Crane) (b : Bool) (x : Port) :
    PortKept (s.port x) ((s.evalWaiting c b).port x) := by
  unfold State.evalWaiting
  dsimp only
  split
  · have := raise_kept (s.setCrane c { s.crane c with waiting := false }) (portOf c)
      (.wait c (s.eligibleOrders c).length) x
    simpa using this
  · exact .refl _

theorem evalCranes_kept (s t : State) (al a b : Bool) (x : Port) :
    PortKept (t.port x) ((evalCranes s t al a b).port x) := by
  unfold evalCranes
  dsimp only
  split <;> split <;>
    first
      | exact .refl _
      | exact evalWaiting_kept ..
      | exact (evalWaiting_kept ..).trans (evalWaiting_kept ..)

theorem pump_port (s : State) (x : Port) : s.pump.port x = (s.port x).pump := by cases x <;> rfl

theorem pump_receiver (q : LinkPort) : q.pump.receiver = q.receiver := by
  unfold LinkPort.pump
  split
  · rfl
  · split
    · rfl
    · split <;> rfl

/-- The response waits for the message being sent, or is sent at once (R198). -/
theorem pump_answered {q : LinkPort} {m : Message} (h : q.slot = some m) :
    match q.sending with
    | none => q.pump.sending = some m ∧ q.pump.slot = none
    | some b => q.pump.sending = some b ∧ q.pump.slot = some m := by
  unfold LinkPort.pump
  cases h2 : q.sending <;> simp [h, h2]

/-- What the end of serving leaves of a port, before its transmitter chooses: the receiver, the response placed and the
message being sent. -/
theorem conclude_kept (s : State) (p : Port) (k : Kind) (a : Bool) (r : State × Reply) (x : Port) :
    ∃ q, (conclude s p k a r).port x = q.pump ∧ PortKept ((r.1.respond p (r.2.message k)).port x) q := by
  unfold conclude
  rw [pump_port]
  refine ⟨_, rfl, ?_⟩
  split
  · exact ⟨rfl, rfl, rfl⟩
  · exact evalCranes_kept ..

theorem conclude_answered (s : State) (p : Port) (k : Kind) (a : Bool) (r : State × Reply)
    (h : (r.1.port p).sending = (s.port p).sending) : Answered s (conclude s p k a r) p (r.2.message k) := by
  unfold Answered
  obtain ⟨q, hq, -, h2, h3⟩ := conclude_kept s p k a r p
  rw [hq]
  have e1 : ((r.1.respond p (r.2.message k)).port p).slot = some (r.2.message k) := by simp [State.respond]
  have e2 : ((r.1.respond p (r.2.message k)).port p).sending = (s.port p).sending := by simp [State.respond, h]
  have := pump_answered (h2.trans e1)
  rw [h3.trans e2] at this
  exact this

theorem conclude_receiver (s : State) (p : Port) (k : Kind) (a : Bool) (r : State × Reply) (x : Port) :
    ((conclude s p k a r).port x).receiver = (r.1.port x).receiver := by
  obtain ⟨q, hq, h1, -, -⟩ := conclude_kept s p k a r x
  rw [hq, pump_receiver, h1]
  unfold State.respond
  rw [State.setPort_port]
  split
  · next h => subst h; rfl
  · rfl

/-! ## Nothing changed -/

/-- The states have the same orders, zones, segments, shutters, bays and wing state: nothing that R76 names changed. -/
theorem waitTrigger_same {s t : State} (h1 : t.slots = s.slots) (h2 : t.zones = s.zones) (h3 : t.segs = s.segs)
    (h4 : t.shutters = s.shutters) (h5 : t.bays = s.bays) (h6 : t.sched.wing = s.sched.wing) (x : Crane) :
    waitTrigger x s t = false := by
  have hs : ∀ i, t.slot i = s.slot i := fun i => by simp [State.slot, h1]
  have hl : t.liveOrders = s.liveOrders := by simp [State.liveOrders, hs]
  have hz : ∀ i, t.zone i = s.zone i := fun i => by simp [State.zone, h2]
  have hg : ∀ i, t.seg i = s.seg i := fun i => by simp [State.seg, h3]
  have hk : ∀ i, t.shutter i = s.shutter i := fun i => by simp [State.shutter, h4]
  have hb : ∀ st b, t.bay st b = s.bay st b := fun st b => by simp [State.bay, h5]
  have hq : queueChanged x s t = false := by
    unfold queueChanged
    rw [hl, List.any_eq_false]
    intro e he
    obtain ⟨i, -, hi⟩ := List.mem_filterMap.mp he
    cases ho : (s.slot i).order with
    | none => simp [ho] at hi
    | some o =>
      simp only [ho, Option.map_some, Option.some.injEq] at hi
      subst hi
      simp [hs, ho]
  simp [waitTrigger, hq, hz, hg, hk, hb, h6]

/-- ASSIGN evaluates no waiting crane: its response is placed, and the transmitters choose (R31). -/
theorem conclude_assign (s : State) (p : Port) (a : Bool) (r : State × Reply) :
    conclude s p .assign a r = (r.1.respond p (r.2.message .assign)).pump := by simp [conclude]

theorem evalCranes_none {s t : State} (h : ∀ x, waitTrigger x s t = false) : evalCranes s t false false false = t := by
  simp [evalCranes, h]

/-- A request that leaves everything but its own record alone, where no waiting crane is touched: the response is placed, and
the transmitters choose. -/
theorem conclude_quiet {s : State} {p : Port} {k : Kind} {r : State × Reply}
    (h : ∀ x, waitTrigger x s (r.1.respond p (r.2.message k)) = false) :
    conclude s p k false r = (r.1.respond p (r.2.message k)).pump := by
  simp [conclude, evalCranes_none h]

/-- A refused request changes nothing but its port's response (00_scope 4.2.7). -/
theorem conclude_nak (s : State) (p : Port) (k : Kind) (a : Bool) (r : Reason) (d : Option Nat) :
    conclude s p k a (s, .nak r d) = (s.respond p (.nak (kindCode k) r d)).pump := by
  have h : ∀ x, waitTrigger x s (s.respond p (.nak (kindCode k) r d)) = false := fun x =>
    waitTrigger_same (by simp [State.respond]) (by simp [State.respond]) (by simp [State.respond])
      (by simp [State.respond]) (by simp [State.respond]) (by simp [State.respond]) x
  simp [conclude, Reply.message, Reply.isAck, evalCranes_none h]

/-- A request taken by its owner, on a port of its kind. -/
theorem serve_acked {α : Type} {p : Port} {k : Kind} {read : List Byte → Except Reason α} {args : α}
    {owner : α → State → State × Reply} {s u : State} {f : List Field} (h : s.serves p) (hp : portRefusal p k = none)
    (ho : owner args s = (u, .ack f)) : serve p k read args owner false s = .next (acked s p k f u) := by
  rw [serve_direct h, answer_taken hp, ho]
  rfl

/-- A request refused by its owner, on a port of its kind. -/
theorem serve_refused {α : Type} {p : Port} {k : Kind} {read : List Byte → Except Reason α} {args : α}
    {owner : α → State → State × Reply} {s : State} {al : Bool} {r : Reason} {d : Option Nat} (h : s.serves p)
    (hp : portRefusal p k = none) (ho : owner args s = (s, .nak r d)) :
    serve p k read args owner al s = .next (refused s p k r d) := by
  rw [serve_direct h, answer_taken hp, ho, conclude_nak]
  rfl

end Sys2Proof.Machine
end

