-- ==== Sys2Proof/Laws/Steps.lean ====
section
/-! SUPPORT. Every command is a sequence of moves. Each lemma says so of one operation, in the form that carries a sequence of
moves to the operation's result; `exec_moves` and `step_moves` are the last. -/

namespace Sys2Proof.Machine

/-! ## The primitive operations -/

theorem State.setBin_moves {s t : State} (h : Moves s t) (n : Nat) (r : Bin) : Moves s (t.setBin n r) :=
  h.snoc (.bin t n r)

theorem State.setCell_moves {s t : State} (h : Moves s t) (n : Nat) (r : Cell) : Moves s (t.setCell n r) :=
  h.snoc (.cell t n r)

theorem State.setBay_moves {s t : State} (h : Moves s t) (st : Station) (b : Nat) (r : Bay) : Moves s
    (t.setBay st b r) :=
  h.snoc (.bay t st b r)

theorem State.setSlot_moves {s t : State} (h : Moves s t) (i : Nat) (r : Slot) : Moves s (t.setSlot i r) :=
  h.snoc (.slot t i r)

theorem State.setCounter_moves {s t : State} (h : Moves s t) (n : BitVec 32) : Moves s (t.setCounter n) :=
  h.snoc (.counter t n)

theorem State.setSched_moves {s t : State} (h : Moves s t) (r : Scheduler)
    (hr : SettingsSound t → SchedSound t → SchedSound (t.setSched r)) : Moves s (t.setSched r) :=
  h.snoc (.sched t r hr)

theorem State.setLoop_moves {s t : State} (h : Moves s t) (z : Nat) (r : Loop) : Moves s (t.setLoop z r) :=
  h.snoc (.loop t z r)

theorem State.setZone_moves {s t : State} (h : Moves s t) (z : Nat) (r : Zone) (hr : ZoneSound (t.zone z) → ZoneSound r) :
    Moves s (t.setZone z r) :=
  h.snoc (.zone t z r hr)

theorem State.setShutter_moves {s t : State} (h : Moves s t) (k : Nat) (r : Shutter)
    (hr : ShutterSound (t.shutter k) → ShutterSound r) : Moves s (t.setShutter k r) :=
  h.snoc (.shutter t k r hr)

theorem State.setManual_moves {s t : State} (h : Moves s t) (v : Bool) : Moves s (t.setManual v) :=
  h.snoc (.manual t v)

theorem State.setGen_moves {s t : State} (h : Moves s t) (k : Nat) (r : GenPhase) : Moves s (t.setGen k r) :=
  h.snoc (.gen t k r)

theorem State.sealZone_moves {s t : State} (h : Moves s t) (z : Nat) : Moves s (t.sealZone z) :=
  h.snoc (.sealZone t z)

theorem State.unsealZone_moves {s t : State} (h : Moves s t) (z : Nat) : Moves s (t.unsealZone z) :=
  h.snoc (.unsealZone t z)

theorem State.unreference_moves {s t : State} (h : Moves s t) (c : Crane) : Moves s (t.unreference c) :=
  h.snoc (.unreference t c)

theorem State.captureHome_moves {s t : State} (h : Moves s t) (c : Crane) : Moves s (t.captureHome c) :=
  h.snoc (.home t c)

theorem State.setKeepalive_moves {s t : State} (h : Moves s t) (c : Crane) (w : Window) (k : KeepaliveState) :
    Moves s (t.setKeepalive c w k) :=
  h.snoc (.keepalive t c w k)

theorem State.restartKeepalive_moves {s t : State} (h : Moves s t) (c : Crane) : Moves s (t.restartKeepalive c) :=
  h.snoc (.restart t c)

theorem State.setCreep_moves {s t : State} (h : Moves s t) (c : Crane) (v : Bool) : Moves s (t.setCreep c v) :=
  h.snoc (.creep t c v)

theorem State.clearTrip_moves {s t : State} (h : Moves s t) (c : Crane) (hc : t.clrtRefusal c = none) :
    Moves s (t.clearTrip c) :=
  h.snoc (.clearTrip t c hc)

theorem State.refreshPermit_moves {s t : State} (h : Moves s t) (c : Crane) : Moves s (t.refreshPermit c) :=
  h.snoc (.refresh t c)

theorem State.setPower_moves {s t : State} (h : Moves s t) (x : Power) : Moves s (t.setPower x) :=
  h.snoc (.power t x)

theorem State.setColdStart_moves {s t : State} (h : Moves s t) (x : ColdStart) : Moves s (t.setColdStart x) :=
  h.snoc (.coldStart t x)

/-- A scheduler of which only a crane's items differ from a sound one is sound with them in bounds. -/
theorem SchedSound.setSchedCrane {t : State} (h : SchedSound t) (x : Crane) {r : SchedCrane} (hc : r.credits ≤ 8)
    (hp : r.cursor < t.shareSize x) : SchedSound (t.setSchedCrane x r) := by
  constructor <;> intro y <;> cases x <;> cases y <;>
    first | exact hc | exact hp | exact h.credits .A | exact h.credits .B | exact h.cursor .A | exact h.cursor .B

/-- A scheduler that keeps both cranes' credits and cursors stays sound. -/
theorem SchedSound.setSched {t : State} (h : SchedSound t) {r : Scheduler}
    (ha : (r.a.credits, r.a.cursor) = (t.sched.a.credits, t.sched.a.cursor))
    (hb : (r.b.credits, r.b.cursor) = (t.sched.b.credits, t.sched.b.cursor)) : SchedSound (t.setSched r) := by
  obtain ⟨a1, a2⟩ := Prod.mk.inj ha
  obtain ⟨b1, b2⟩ := Prod.mk.inj hb
  constructor <;> intro x <;> cases x
  · exact a1.trans_le (h.credits .A)
  · exact b1.trans_le (h.credits .B)
  · exact a2.trans_lt (h.cursor .A)
  · exact b2.trans_lt (h.cursor .B)

theorem State.setSchedCrane_moves {s t : State} (h : Moves s t) (x : Crane) (r : SchedCrane)
    (hr : SettingsSound t → SchedSound t → r.credits ≤ 8 ∧ r.cursor < t.shareSize x) : Moves s (t.setSchedCrane x r) := by
  have e (a : SettingsSound t) (b : SchedSound t) := b.setSchedCrane x (hr a b).1 (hr a b).2
  cases x <;> exact h.snoc (.sched t _ e)

theorem State.setOrder_moves {s t : State} (h : Moves s t) (i : Nat) (o : Option Order) : Moves s (t.setOrder i o) :=
  h.snoc (.slot t i _)

theorem State.setCrane_moves {s t : State} (h : Moves s t) (c : Crane) (r : CraneRec) (hr : SamePermit
    (t.crane c) r) :
    Moves s (t.setCrane c r) :=
  h.snoc (.crane t c r hr)

theorem State.setPort_moves {s t : State} (h : Moves s t) (p : Port) (q : LinkPort) (hq : PortMove (t.port p) q) :
    Moves s (t.setPort p q) :=
  h.snoc (.port t p q hq)

theorem State.respond_moves {s t : State} (h : Moves s t) (p : Port) (m : Message) : Moves s (t.respond p m) :=
  State.setPort_moves h p _ (.respond _ m)

theorem State.raise_moves {s t : State} (h : Moves s t) (p : Port) (n : Notice) : Moves s (t.raise p n) :=
  State.setPort_moves h p _ (.offer _ n)

theorem State.raiseAll_moves {s t : State} (h : Moves s t) (ps : List Port) (n : Notice) : Moves s
    (t.raiseAll ps n) :=
  Moves.foldl (fun _ _ p h => State.raise_moves h p n) ps h

/-- Every transmitter chooses: four port updates. -/
theorem State.pump_eq (s : State) :
    s.pump = (((s.setPort .C s.portC.pump).setPort .A s.portA.pump).setPort .B s.portB.pump).setPort .S s.portS.pump := rfl

theorem State.pump_moves {s t : State} (h : Moves s t) : Moves s t.pump := by
  rw [State.pump_eq]
  exact State.setPort_moves (State.setPort_moves (State.setPort_moves (State.setPort_moves h .C _ (.pump _)) .A _ (.pump _))
    .B _ (.pump _)) .S _ (.pump _)

theorem ownStat_moves {s t : State} (h : Moves s t) (p : Port) (y : Unit) : Moves s (ownStat p y t).1 := by
  have h1 := State.setPort_moves h p _ (.clearFlags (t.port p))
  unfold ownStat
  dsimp only
  split
  · exact State.setColdStart_moves h1 .clear
  · exact h1

theorem ownRdbin_moves {s t : State} (h : Moves s t) (n : Nat) : Moves s (ownRdbin n t).1 := by
  unfold ownRdbin refuse
  repeat' (first | with_reducible exact h | dsimp only | split)

theorem ownRdcell_moves {s t : State} (h : Moves s t) (n : Nat) : Moves s (ownRdcell n t).1 := by
  unfold ownRdcell refuse
  repeat' (first | with_reducible exact h | dsimp only | split)

theorem ownRdord_moves {s t : State} (h : Moves s t) (a : Nat × Nat) : Moves s (ownRdord a t).1 := by
  unfold ownRdord refuse
  repeat' (first | with_reducible exact h | dsimp only | split)

theorem ownRdcrn_moves {s t : State} (h : Moves s t) (n : Nat) : Moves s (ownRdcrn n t).1 := by
  unfold ownRdcrn refuse
  repeat' (first | with_reducible exact h | dsimp only | split)

theorem ownRdseg_moves {s t : State} (h : Moves s t) (n : Nat) : Moves s (ownRdseg n t).1 := by
  unfold ownRdseg refuse
  repeat' (first | with_reducible exact h | dsimp only | split)

theorem ownRdzone_moves {s t : State} (h : Moves s t) (a : ZoneRead) : Moves s (ownRdzone a t).1 := by
  unfold ownRdzone refuse
  repeat' (first | with_reducible exact h | with_reducible apply State.setManual_moves | dsimp only | split)

theorem State.latchTrip_moves {s t : State} (h : Moves s t) (c : Crane) (cause : TripCause) : Moves s
    (t.latchTrip c cause) := by
  unfold State.latchTrip
  split
  · exact h
  · exact State.raiseAll_moves (h.snoc (.trip t c cause)) _ _

theorem State.tripUnreference_moves {s t : State} (h : Moves s t) (c : Crane) (cause : TripCause) :
    Moves s (t.tripUnreference c cause) := by
  unfold State.tripUnreference
  repeat' (first | with_reducible exact h | with_reducible apply State.unreference_moves |
      with_reducible apply State.latchTrip_moves)

theorem State.cellTo_moves {s t : State} (h : Moves s t) (n : Nat) (st : CellState) :
    Moves s (t.cellTo n st) := by
  unfold State.cellTo
  repeat' (first | with_reducible exact h | with_reducible apply State.setCell_moves)

theorem State.misplace_moves {s t : State} (h : Moves s t) (y : Option Nat) :
    Moves s (t.misplace y) := by
  unfold State.misplace
  repeat' (first | with_reducible exact h | with_reducible apply State.setBin_moves | dsimp only | split)

theorem State.enterSuspect_moves {s t : State} (h : Moves s t) (n : Nat) :
    Moves s (t.enterSuspect n) := by
  unfold State.enterSuspect
  repeat' (first | with_reducible exact h | with_reducible apply State.raise_moves |
      with_reducible apply State.cellTo_moves | with_reducible apply State.misplace_moves | dsimp only | split)

theorem State.enterBlocked_moves {s t : State} (h : Moves s t) (n : Nat) :
    Moves s (t.enterBlocked n) := by
  unfold State.enterBlocked
  repeat' (first | with_reducible exact h | with_reducible apply State.cellTo_moves |
      with_reducible apply State.misplace_moves | dsimp only | split)

theorem State.reserveCell_moves {s t : State} (h : Moves s t) (n : Nat) (hd : Handle) :
    Moves s (t.reserveCell n hd) := by
  unfold State.reserveCell
  repeat' (first | with_reducible exact h | with_reducible apply State.cellTo_moves)

theorem State.releaseCell_moves {s t : State} (h : Moves s t) (n : Nat) (hd : Handle) :
    Moves s (t.releaseCell n hd) := by
  unfold State.releaseCell
  repeat' (first | with_reducible exact h | with_reducible apply State.cellTo_moves | dsimp only | split)

theorem State.emptyBay_moves {s t : State} (h : Moves s t) (st : Station) (b : Nat) :
    Moves s (t.emptyBay st b) := by
  unfold State.emptyBay
  repeat' (first | with_reducible exact h | with_reducible apply State.setBay_moves)

theorem State.bayTo_moves {s t : State} (h : Moves s t) (st : Station) (b : Nat) (x : BayState) :
    Moves s (t.bayTo st b x) := by
  unfold State.bayTo
  repeat' (first | with_reducible exact h | with_reducible apply State.setBay_moves)

theorem State.setKeep_moves {s t : State} (h : Moves s t) (st : Station) (b : Nat) (v : Bool) :
    Moves s (t.setKeep st b v) := by
  unfold State.setKeep
  repeat' (first | with_reducible exact h | with_reducible apply State.setBay_moves)

theorem State.setStowWanted_moves {s t : State} (h : Moves s t) (st : Station) (b : Nat) (v : Bool) :
    Moves s (t.setStowWanted st b v) := by
  unfold State.setStowWanted
  repeat' (first | with_reducible exact h | with_reducible apply State.setBay_moves)

theorem State.setCarried_moves {s t : State} (h : Moves s t) (c : Crane) (b : Option Nat) :
    Moves s (t.setCarried c b) := by
  unfold State.setCarried
  repeat' (first | with_reducible exact h | refine State.setCrane_moves ?_ _ _ ⟨rfl, rfl, rfl, rfl, rfl, rfl, rfl, rfl, rfl⟩)

theorem State.binTo_moves {s t : State} (h : Moves s t) (b : Nat) (x : BinPlace) :
    Moves s (t.binTo b x) := by
  unfold State.binTo
  repeat' (first | with_reducible exact h | with_reducible apply State.setBin_moves)

theorem State.loadFromCell_moves {s t : State} (h : Moves s t) (c : Crane) (n b : Nat) :
    Moves s (t.loadFromCell c n b) := by
  unfold State.loadFromCell
  repeat' (first | with_reducible exact h | with_reducible apply State.cellTo_moves |
      with_reducible apply State.setCarried_moves | with_reducible apply State.binTo_moves)

theorem State.loadFromBay_moves {s t : State} (h : Moves s t) (c : Crane) (st : Station) (bay b : Nat) :
    Moves s (t.loadFromBay c st bay b) := by
  unfold State.loadFromBay
  repeat' (first | with_reducible exact h | with_reducible apply State.setBin_moves |
      with_reducible apply State.emptyBay_moves | with_reducible apply State.setCarried_moves |
      with_reducible apply State.binTo_moves)

theorem State.deliverToBay_moves {s t : State} (h : Moves s t) (c : Crane) (st : Station) (bay b : Nat)
    (keep : Bool) :
    Moves s (t.deliverToBay c st bay b keep) := by
  unfold State.deliverToBay
  repeat' (first | with_reducible exact h | with_reducible apply State.setBay_moves |
      with_reducible apply State.setCarried_moves | with_reducible apply State.binTo_moves)

theorem State.deliverToCell_moves {s t : State} (h : Moves s t) (c : Crane) (n b : Nat) :
    Moves s (t.deliverToCell c n b) := by
  unfold State.deliverToCell
  repeat' (first | with_reducible exact h | with_reducible apply State.cellTo_moves |
      with_reducible apply State.setCarried_moves | with_reducible apply State.binTo_moves)

theorem State.bindBin_moves {s t : State} (h : Moves s t) (bin : Option Nat) (hd : Handle) :
    Moves s (t.bindBin bin hd) := by
  unfold State.bindBin
  repeat' (first | with_reducible exact h | with_reducible apply State.setBin_moves | dsimp only | split)

theorem State.reserveFor_moves {s t : State} (h : Moves s t) (o : Order) (hd : Handle) :
    Moves s (t.reserveFor o hd) := by
  unfold State.reserveFor
  repeat' (first | with_reducible exact h | with_reducible apply State.reserveCell_moves | dsimp only | split)

theorem State.clearWanted_moves {s t : State} (h : Moves s t) (o : Order) :
    Moves s (t.clearWanted o) := by
  unfold State.clearWanted
  repeat' (first | with_reducible exact h | with_reducible apply State.setStowWanted_moves | dsimp only | split)

theorem State.takeOrphan_moves {s t : State} (h : Moves s t) (o : Order) (hd : Handle) :
    Moves s (t.takeOrphan o hd) := by
  unfold State.takeOrphan
  repeat' (first | with_reducible exact h | refine State.setCrane_moves ?_ _ _ ⟨rfl, rfl, rfl, rfl, rfl, rfl, rfl, rfl, rfl⟩ |
      dsimp only | split)

theorem State.fillSlot_moves {s t : State} (h : Moves s t) (i : Nat) (o : Order) :
    Moves s (t.fillSlot i o) := by
  unfold State.fillSlot
  repeat' (first | with_reducible exact h | with_reducible apply State.setSlot_moves |
      with_reducible apply State.setCounter_moves | with_reducible apply State.bindBin_moves |
      with_reducible apply State.reserveFor_moves | with_reducible apply State.clearWanted_moves |
      with_reducible apply State.takeOrphan_moves)

theorem State.create_moves {s t u : State} {hd : Handle} (h : Moves s t) {o : Order}
    (e : t.create o = some (u, hd)) : Moves s u := by
  unfold State.create at e
  split at e
  · cases e
  · cases e
    exact State.fillSlot_moves h _ _

theorem State.startTimer_moves {s t : State} (h : Moves s t) (i : Nat) :
    Moves s (t.startTimer i) := by
  unfold State.startTimer
  repeat' (first | with_reducible exact h | with_reducible apply State.setOrder_moves | dsimp only | split)

theorem State.releaseDest_moves {s t : State} (h : Moves s t) (o : Order) (hd : Handle) :
    Moves s (t.releaseDest o hd) := by
  unfold State.releaseDest
  repeat' (first | with_reducible exact h | with_reducible apply State.releaseCell_moves | dsimp only | split)

theorem State.redestine_moves {s t : State} (h : Moves s t) (i : Nat) :
    Moves s (t.redestine i) := by
  unfold State.redestine
  repeat' (first | with_reducible exact h | with_reducible apply State.setOrder_moves |
      with_reducible apply State.reserveCell_moves | with_reducible apply State.releaseDest_moves | dsimp only |
      split)

theorem State.unbindBin_moves {s t : State} (h : Moves s t) (bin : Option Nat) :
    Moves s (t.unbindBin bin) := by
  unfold State.unbindBin
  repeat' (first | with_reducible exact h | with_reducible apply State.setBin_moves | dsimp only | split)

theorem State.endReservation_moves {s t : State} (h : Moves s t) (o : Order) (hd : Handle) :
    Moves s (t.endReservation o hd) := by
  unfold State.endReservation
  repeat' (first | with_reducible exact h | with_reducible apply State.releaseDest_moves | dsimp only | split)

theorem State.endBay_moves {s t : State} (h : Moves s t) (o : Order) (hd : Handle) :
    Moves s (t.endBay o hd) := by
  unfold State.endBay
  repeat' (first | with_reducible exact h | with_reducible apply State.emptyBay_moves |
      with_reducible apply State.bayTo_moves | dsimp only | split)

theorem State.endPicks_moves {s t : State} (h : Moves s t) (o : Order) :
    Moves s (t.endPicks o) := by
  unfold State.endPicks
  repeat' (first | with_reducible exact h | with_reducible apply State.setBin_moves | dsimp only | split)

theorem State.endCrane_moves {s t : State} (h : Moves s t) (o : Order) (hd : Handle) (f : FinalState) :
    Moves s (t.endCrane o hd f) := by
  unfold State.endCrane
  repeat' (first | with_reducible exact h | refine State.setCrane_moves ?_ _ _ ⟨rfl, rfl, rfl, rfl, rfl, rfl, rfl, rfl, rfl⟩ |
      dsimp only | split)

theorem State.endNotice_moves {s t : State} (h : Moves s t) (o : Order) (hd : Handle) (outcome : Option EndOutcome) :
    Moves s (t.endNotice o hd outcome) := by
  unfold State.endNotice
  repeat' (first | with_reducible exact h | with_reducible apply State.raise_moves | dsimp only | split)

theorem State.endOrder_moves {s t : State} (h : Moves s t) (i : Nat) (f : FinalState) (outcome : Option EndOutcome) :
    Moves s (t.endOrder i f outcome) := by
  unfold State.endOrder
  repeat' (first | with_reducible exact h | with_reducible apply State.setOrder_moves |
      with_reducible apply State.unbindBin_moves | with_reducible apply State.endReservation_moves |
      with_reducible apply State.endBay_moves | with_reducible apply State.endPicks_moves |
      with_reducible apply State.endCrane_moves | with_reducible apply State.endNotice_moves | dsimp only | split)

theorem State.failMisplaced_moves {s t : State} (h : Moves s t) (except : Option Nat) (b : Nat) :
    Moves s (t.failMisplaced except b) := by
  unfold State.failMisplaced
  repeat' (first | with_reducible exact h | with_reducible apply State.endOrder_moves | dsimp only | split)

theorem State.evalWaiting_moves {s t : State} (h : Moves s t) (x : Crane) (credit : Bool) :
    Moves s (t.evalWaiting x credit) := by
  unfold State.evalWaiting
  repeat' (first | with_reducible exact h | with_reducible apply State.raise_moves |
      refine State.setCrane_moves ?_ _ _ ⟨rfl, rfl, rfl, rfl, rfl, rfl, rfl, rfl, rfl⟩ | dsimp only | split)

theorem evalCranes_moves {s0 : State} (s : State) {t : State} (h : Moves s0 t) (always a b : Bool) :
    Moves s0 (evalCranes s t always a b) := by
  unfold evalCranes
  dsimp only
  repeat' (first | with_reducible exact h | with_reducible apply State.evalWaiting_moves | split)

theorem finish_moves {s0 : State} (s : State) {t : State} (h : Moves s0 t) : Moves s0 (finish s t) :=
  State.pump_moves (evalCranes_moves s h _ _ _)

theorem answer_moves {α : Type} {p : Port} {k : Kind} {args : Except Reason α} {owner : α → State → State × Reply}
    (ho : ∀ (s t : State) (a : α), Moves s t → Moves s (owner a t).1) {s t : State} (h : Moves s t) :
    Moves s (answer p k args owner t).1 := by
  unfold answer refuse
  repeat' (first | with_reducible exact h | dsimp only | with_reducible apply ho | split)

theorem conclude_moves {s0 : State} (s : State) (p : Port) (k : Kind) (a : Bool) (r : State × Reply)
    (h : Moves s0 r.1) :
    Moves s0 (conclude s p k a r) := by
  unfold conclude
  dsimp only
  split
  · exact State.pump_moves (State.respond_moves h _ _)
  · exact State.pump_moves (evalCranes_moves s (State.respond_moves h _ _) _ _ _)

theorem served_moves {α : Type} {p : Port} {k : Kind} {read : List Byte → Except Reason α} {args : α}
    {owner : α → State → State × Reply} {a : Bool}
    (ho : ∀ (s t : State) (x : α), Moves s t → Moves s (owner x t).1) (s : State) :
    Moves s (served p k read args owner a s) := by
  unfold served
  repeat' (first | with_reducible exact .refl | with_reducible apply conclude_moves |
      with_reducible apply answer_moves ho |
    exact State.setPort_moves .refl _ _ (.takeItem _) | split)

theorem serve_moves {α : Type} {p : Port} {k : Kind} {read : List Byte → Except Reason α} {args : α}
    {owner : α → State → State × Reply} {a : Bool}
    (ho : ∀ (s t : State) (x : α), Moves s t → Moves s (owner x t).1) {s t : State}
    (e : serve p k read args owner a s = .next t) : Moves s t := by
  cases e
  exact served_moves ho s

theorem whenRunning_moves {s t : State} {f : State → State} (hf : Moves s (f s)) (e : whenRunning s f = .next t) :
    Moves s t := by
  cases e
  unfold eventState
  split
  · exact hf
  · exact .refl

theorem onCrane_moves {s t : State} (h : Moves s t) (p : Port) {f : Crane → State × Reply}
    (hf : ∀ c, Moves s (f c).1) : Moves s (onCrane p t f).1 := by
  unfold onCrane refuse
  split
  · exact hf _
  · exact h

theorem ownRsv_moves {s t : State} (h : Moves s t) (p : Port) (a : Nat × Nat) : Moves s (ownRsv p a t).1 := by
  unfold ownRsv
  split
  · next e =>
    refine onCrane_moves h p (fun c => h.snoc (.rsv t c a.1 a.2 ?_))
    simp_all [okSegment]
  · exact h

theorem ownRel_moves {s t : State} (h : Moves s t) (p : Port) (a : Nat × Nat) : Moves s (ownRel p a t).1 := by
  unfold ownRel
  split
  · next e =>
    refine onCrane_moves h p (fun c => h.snoc (.rel t c a.1 a.2 ?_))
    simp_all [okSegment]
  · exact h

theorem ownFrel_moves {s t : State} (h : Moves s t) (a : Nat × Nat × Nat) : Moves s (ownFrel a t).1 := by
  unfold ownFrel
  split
  · exact h
  · split
    · next e =>
      refine h.snoc (.frel t _ a.2.1 a.2.2 ?_)
      simp_all [okSegment]
    · exact h

theorem ownKeep_moves {s t : State} (h : Moves s t) (p : Port) (code : Nat) : Moves s (ownKeep p code t).1 := by
  unfold ownKeep
  split
  · exact h
  · exact onCrane_moves h p (fun c => State.setKeepalive_moves h _ _ _)

theorem ownStop_moves {s t : State} (h : Moves s t) (n : Nat) :
    Moves s (ownStop n t).1 := by
  unfold ownStop
  repeat' (first | with_reducible exact h | with_reducible apply State.latchTrip_moves | simp only [refuse] |
      dsimp only | split)

theorem ownCreep_moves {s t : State} (h : Moves s t) (v : Bool) (n : Nat) :
    Moves s (ownCreep v n t).1 := by
  unfold ownCreep
  repeat' (first | with_reducible exact h | with_reducible apply State.setCreep_moves | simp only [refuse] |
      dsimp only | split)

theorem State.clrt_moves {s t : State} (h : Moves s t) (c : Crane) :
    Moves s (t.clrt c).1 := by
  unfold State.clrt
  repeat' (first | with_reducible exact h | with_reducible apply State.clearTrip_moves | assumption |
      simp only [refuseDetail] | dsimp only | split)

theorem ownClrt_moves {s t : State} (h : Moves s t) (p : Port) (y : Unit) : Moves s (ownClrt p y t).1 :=
  onCrane_moves h p (fun c => State.clrt_moves h c)

theorem State.leaveOldPlace_moves {s t : State} (h : Moves s t) (b : Nat) (cell : Option Nat) :
    Moves s (t.leaveOldPlace b cell) := by
  unfold State.leaveOldPlace
  repeat' (first | with_reducible exact h | with_reducible apply State.cellTo_moves |
      with_reducible apply State.emptyBay_moves | dsimp only | split)

theorem State.takeNewPlace_moves {s t : State} (h : Moves s t) (b : Nat) (cell : Option Nat) :
    Moves s (t.takeNewPlace b cell) := by
  unfold State.takeNewPlace
  repeat' (first | with_reducible exact h | with_reducible apply State.setCell_moves |
      with_reducible apply State.binTo_moves | dsimp only | split)

theorem State.assign_moves {s t : State} (h : Moves s t) (b : Nat) (cell : Option Nat) :
    Moves s (t.assign b cell) := by
  unfold State.assign
  repeat' (first | with_reducible exact h | with_reducible apply State.setBin_moves |
      with_reducible apply State.leaveOldPlace_moves | with_reducible apply State.takeNewPlace_moves)

theorem ownAssign_moves {s t : State} (h : Moves s t) (a : Nat × Option Nat) :
    Moves s (ownAssign a t).1 := by
  unfold ownAssign
  repeat' (first | with_reducible exact h | with_reducible apply State.assign_moves | simp only [refuse] |
      dsimp only | split)

theorem ownToUnverified_moves {s t : State} (h : Moves s t) (source : CellState) (n : Nat) :
    Moves s (ownToUnverified source n t).1 := by
  unfold ownToUnverified
  repeat' (first | with_reducible exact h | with_reducible apply State.cellTo_moves | simp only [refuse] |
      dsimp only | split)

theorem ownBlock_moves {s t : State} (h : Moves s t) (n : Nat) :
    Moves s (ownBlock n t).1 := by
  unfold ownBlock
  repeat' (first | with_reducible exact h | with_reducible apply State.enterBlocked_moves | simp only [refuse] |
      dsimp only | split)

theorem ownQuar_moves {s t : State} (h : Moves s t) (v : Bool) (b : Nat) :
    Moves s (ownQuar v b t).1 := by
  unfold ownQuar
  repeat' (first | with_reducible exact h | with_reducible apply State.setBin_moves | simp only [refuse] |
      dsimp only | split)

theorem ownSetcmp_moves {s t : State} (h : Moves s t) (a : Nat × List Nat) :
    Moves s (ownSetcmp a t).1 := by
  unfold ownSetcmp
  repeat' (first | with_reducible exact h | with_reducible apply State.setBin_moves | simp only [refuse] |
      dsimp only | split)

theorem ownMove_moves {s t : State} (h : Moves s t) (a : Nat × Nat × Nat) :
    Moves s (ownMove a t).1 := by
  unfold ownMove
  repeat' (first | with_reducible exact h | refine State.create_moves ?_ (by assumption) | simp only [refuse] |
      dsimp only | split)

theorem ownServiceCancel_moves {s t : State} (h : Moves s t) (a : Nat × Nat) :
    Moves s (ownServiceCancel a t).1 := by
  unfold ownServiceCancel
  repeat' (first | with_reducible exact h | with_reducible apply State.endOrder_moves | simp only [refuse] |
      dsimp only | split)

theorem ownWhold_moves {s t : State} (h : Moves s t) (zones : List Nat) :
    Moves s (ownWhold zones t).1 := by
  unfold ownWhold
  split
  · exact h
  · split
    · exact h
    · exact State.setSched_moves h _ (fun _ a => a.setSched rfl rfl)

theorem ownWres_moves {s t : State} (h : Moves s t) (y : Unit) :
    Moves s (ownWres y t).1 := by
  unfold ownWres
  exact State.setSched_moves h _ (fun _ a => a.setSched rfl rfl)

theorem State.attemptStow_moves {s t : State} (h : Moves s t) (st : Station) (bay b : Nat) :
    Moves s (t.attemptStow st bay b).1 := by
  unfold State.attemptStow
  repeat' (first | with_reducible exact h | with_reducible apply State.setStowWanted_moves |
      refine State.create_moves ?_ (by assumption) | dsimp only | split)

theorem State.autoStow_moves {s t : State} (h : Moves s t) (st : Station) (bay : Nat) :
    Moves s (t.autoStow st bay).1 := by
  unfold State.autoStow
  repeat' (first | with_reducible exact h | with_reducible apply State.attemptStow_moves | dsimp only | split)

theorem State.markPicks_moves {s t : State} (h : Moves s t) (b : Nat) (picks : List Nat) :
    Moves s (t.markPicks b picks) := by
  unfold State.markPicks
  repeat' (first | with_reducible exact h | with_reducible apply State.setBin_moves)

theorem State.takeAtBay_moves {s t : State} (h : Moves s t) (b : Nat) (st : Station) (bay : Nat) (picks : List Nat) :
    Moves s (t.takeAtBay b st bay picks) := by
  unfold State.takeAtBay
  repeat' (first | with_reducible exact h | with_reducible apply State.setKeep_moves |
      with_reducible apply State.markPicks_moves | dsimp only | split)

theorem State.fetchAtBay_moves {s t : State} (h : Moves s t) (b : Nat) (st : Station) (bay : Nat) (picks : List Nat) :
    Moves s (t.fetchAtBay b st bay picks).1 := by
  unfold State.fetchAtBay
  repeat' (first | with_reducible exact h | with_reducible apply State.endOrder_moves |
      with_reducible apply State.takeAtBay_moves | simp only [refuse] | dsimp only | split)

theorem State.fetchStored_moves {s t : State} (h : Moves s t) (b : Nat) (st : Station) (picks : List Nat)
    (loan : BitVec 32) :
    Moves s (t.fetchStored b st picks loan).1 := by
  unfold State.fetchStored
  repeat' (first | with_reducible exact h | with_reducible apply State.markPicks_moves |
      refine State.create_moves ?_ (by assumption) | simp only [refuse, refuseDetail] | dsimp only | split)

theorem State.fetch_moves {s t : State} (h : Moves s t) (b : Nat) (st : Station) (picks : List Nat)
    (loan : BitVec 32) :
    Moves s (t.fetch b st picks loan).1 := by
  unfold State.fetch
  repeat' (first | with_reducible exact h | with_reducible apply State.fetchAtBay_moves |
      with_reducible apply State.fetchStored_moves | simp only [refuse, refuseDetail] | dsimp only | split)

theorem ownFetch_moves {s t : State} (h : Moves s t) (a : FetchArgs) :
    Moves s (ownFetch a t).1 := by
  unfold ownFetch
  repeat' (first | with_reducible exact h | with_reducible apply State.fetch_moves | simp only [refuse] |
      dsimp only | split)

theorem State.evalDesk_moves {s t : State} (h : Moves s t) (b : Nat) :
    Moves s (t.evalDesk b).1 := by
  unfold State.evalDesk
  repeat' (first | with_reducible exact h | with_reducible apply State.autoStow_moves | dsimp only | split)

theorem State.deskDone_moves {s t : State} (h : Moves s t) (b i : Nat) :
    Moves s (t.deskDone b i).1 := by
  unfold State.deskDone
  repeat' (first | with_reducible exact h | with_reducible apply State.evalDesk_moves)

theorem deskRequest_moves {atBay : Bool} {x y : Comp} {after : Nat → State → State}
    (ha : ∀ (s t : State) (n : Nat), Moves s t → Moves s (after n t)) {s t : State} (h : Moves s t) (a : Nat × Nat) :
    Moves s (deskRequest atBay x y after a t).1 := by
  unfold deskRequest refuse refuseDetail
  repeat' (first | with_reducible exact h | dsimp only | with_reducible apply State.deskDone_moves |
      with_reducible apply ha |
    with_reducible apply State.setBin_moves | split)

theorem noAfter_moves {s t : State} (n : Nat) (h : Moves s t) : Moves s (noAfter n t) := h

theorem ownPick_moves {s t : State} (h : Moves s t) (a : Nat × Nat) : Moves s (ownPick a t).1 :=
  deskRequest_moves (fun _ _ n h => noAfter_moves n h) h a

theorem ownUnpick_moves {s t : State} (h : Moves s t) (a : Nat × Nat) : Moves s (ownUnpick a t).1 :=
  deskRequest_moves (fun _ _ n h => noAfter_moves n h) h a

theorem keepUnlessFull_moves {s t : State} (h : Moves s t) (b : Nat) :
    Moves s (keepUnlessFull b t) := by
  unfold keepUnlessFull
  repeat' (first | with_reducible exact h | with_reducible apply State.setKeep_moves | dsimp only | split)

theorem ownPlace_moves {s t : State} (h : Moves s t) (a : Nat × Nat) : Moves s (ownPlace a t).1 :=
  deskRequest_moves (fun _ _ n h => keepUnlessFull_moves h n) h a

theorem ownUnclaim_moves {s t : State} (h : Moves s t) (a : Nat × Nat) : Moves s (ownUnclaim a t).1 :=
  deskRequest_moves (fun _ _ n h => noAfter_moves n h) h a

theorem State.slotFetch_moves {s t : State} (h : Moves s t) (st : Station) :
    Moves s (t.slotFetch st).1 := by
  unfold State.slotFetch
  repeat' (first | with_reducible exact h | with_reducible apply State.fetch_moves |
      refine State.create_moves ?_ (by assumption) | simp only [refuse] | dsimp only | split)

theorem State.allocSlot_moves {s t : State} (h : Moves s t) (st : Station) :
    Moves s (t.allocSlot st).1 := by
  unfold State.allocSlot
  repeat' (first | with_reducible exact h | with_reducible apply State.setBin_moves |
      with_reducible apply State.slotFetch_moves | dsimp only | split)

theorem ownSlot_moves {s t : State} (h : Moves s t) (n : Nat) :
    Moves s (ownSlot n t).1 := by
  unfold ownSlot
  repeat' (first | with_reducible exact h | with_reducible apply State.allocSlot_moves | simp only [refuse] |
      dsimp only | split)

theorem State.relbay_moves {s t : State} (h : Moves s t) (st : Station) (bay : Nat) :
    Moves s (t.relbay st bay).1 := by
  unfold State.relbay
  repeat' (first | with_reducible exact h | with_reducible apply State.setKeep_moves |
      with_reducible apply State.autoStow_moves)

theorem ownRelbay_moves {s t : State} (h : Moves s t) (a : Nat × Nat) :
    Moves s (ownRelbay a t).1 := by
  unfold ownRelbay
  repeat' (first | with_reducible exact h | with_reducible apply State.relbay_moves | simp only [refuse] |
      dsimp only | split)

theorem ownCancel_moves {s t : State} (h : Moves s t) (a : Nat × Nat) :
    Moves s (ownCancel a t).1 := by
  unfold ownCancel
  repeat' (first | with_reducible exact h | with_reducible apply State.endOrder_moves |
      with_reducible apply State.fetch_moves | simp only [refuse] | dsimp only | split)

theorem State.advanceEpoch_moves {s t : State} (h : Moves s t)  :
    Moves s (t.advanceEpoch) := by
  unfold State.advanceEpoch
  split
  · exact State.setSched_moves h _
      (fun _ a => a.setSched rfl rfl)
  · exact h

/-- A share has a cell (R150, R202). -/
theorem shareSize_pos {s : State} (h : SettingsSound s) (x : Crane) : 0 < s.shareSize x := by
  have := h.ranged .split 1 158 rfl
  simp only [State.param] at this
  cases x <;> simp only [State.shareSize, cellCount] <;> omega

theorem cursorAfter_lt {s : State} (h : SettingsSound s) (x : Crane) (i : Nat) : s.cursorAfter x i < s.shareSize x := by
  unfold State.cursorAfter
  split
  · assumption
  · exact shareSize_pos h x

theorem State.moveCursor_moves {s t : State} (h : Moves s t) (x : Crane) (i : Nat) :
    Moves s (t.moveCursor x i) := by
  unfold State.moveCursor
  exact State.advanceEpoch_moves (State.setSchedCrane_moves h x _ (fun a b => ⟨b.credits x, cursorAfter_lt a x i⟩))

theorem State.spendCredit_moves {s t : State} (h : Moves s t) (x : Crane) :
    Moves s (t.spendCredit x) := by
  unfold State.spendCredit
  exact State.setSchedCrane_moves h x _ (fun _ b => ⟨(Nat.sub_le _ _).trans (b.credits x), b.cursor x⟩)

theorem State.createVerify_moves {s t u : State} {hd : Handle} (h : Moves s t) {x : Crane} {i n : Nat}
    (e : t.createVerify x i n = some (u, hd)) : Moves s u := by
  unfold State.createVerify at e
  split at e
  · cases e
  · split at e
    · cases e
    · next v g e' =>
      cases e
      exact State.spendCredit_moves (State.moveCursor_moves (State.create_moves h e') _ _) _

theorem State.setLag_moves {s t : State} (h : Moves s t) (x : Crane) (cause : VlagCause) :
    Moves s (t.setLag x cause) := by
  have h1 := State.setSchedCrane_moves h x { t.schedCrane x with lag := true } (fun _ b => ⟨b.credits x, b.cursor x⟩)
  unfold State.setLag
  dsimp only
  split
  · exact h1
  · exact State.raise_moves h1 _ _

theorem State.attemptUrgent_moves {s t : State} (h : Moves s t) (x : Crane) :
    Moves s (t.attemptUrgent x) := by
  unfold State.attemptUrgent
  repeat' (first | with_reducible exact h | with_reducible apply State.setLag_moves |
      refine State.createVerify_moves ?_ (by assumption) | dsimp only | split)

theorem State.intervalCrane_moves {s t : State} (h : Moves s t) (x : Crane) :
    Moves s (t.intervalCrane x) := by
  unfold State.intervalCrane
  dsimp only
  split
  · next c =>
    have h1 := State.setSchedCrane_moves h x { t.schedCrane x with credits := (t.schedCrane x).credits + 1 }
      (fun _ b => ⟨c, b.cursor x⟩)
    split
    · exact State.attemptUrgent_moves h1 x
    · exact h1
  · exact State.attemptUrgent_moves h x

theorem State.restartInterval_moves {s t : State} (h : Moves s t)  :
    Moves s (t.restartInterval) := by
  unfold State.restartInterval
  exact State.setSched_moves h _ (fun _ a => a.setSched rfl rfl)

theorem State.stampCell_moves {s t : State} (h : Moves s t) (n : Nat) :
    Moves s (t.stampCell n) := by
  unfold State.stampCell
  repeat' (first | with_reducible exact h | with_reducible apply State.setCell_moves)

theorem State.registerBin_moves {s t : State} (h : Moves s t) (n b : Nat) :
    Moves s (t.registerBin n b) := by
  unfold State.registerBin
  repeat' (first | with_reducible exact h | with_reducible apply State.setBin_moves |
      with_reducible apply State.cellTo_moves | with_reducible apply State.stampCell_moves)

theorem State.unreadable_moves {s t : State} (h : Moves s t) (n : Nat) :
    Moves s (t.unreadable n) := by
  unfold State.unreadable
  repeat' (first | with_reducible exact h | with_reducible apply State.setCell_moves |
      with_reducible apply State.enterSuspect_moves | dsimp only | split)

theorem State.tagMismatch_moves {s t : State} (h : Moves s t) (n b' : Nat) :
    Moves s (t.tagMismatch n b') := by
  unfold State.tagMismatch
  repeat' (first | with_reducible exact h | with_reducible apply State.enterSuspect_moves | dsimp only | split)

theorem State.applyTag_moves {s t : State} (h : Moves s t) (n b' : Nat) :
    Moves s (t.applyTag n b') := by
  unfold State.applyTag
  repeat' (first | with_reducible exact h | with_reducible apply State.enterSuspect_moves |
      with_reducible apply State.stampCell_moves | with_reducible apply State.registerBin_moves |
      with_reducible apply State.tagMismatch_moves | dsimp only | split)

theorem State.applyNoBin_moves {s t : State} (h : Moves s t) (n : Nat) :
    Moves s (t.applyNoBin n) := by
  unfold State.applyNoBin
  repeat' (first | with_reducible exact h | with_reducible apply State.cellTo_moves |
      with_reducible apply State.enterSuspect_moves | with_reducible apply State.stampCell_moves | dsimp only | split)

theorem State.applyResult_moves {s t : State} (h : Moves s t) (n : Nat) (r : TagResult) :
    Moves s (t.applyResult n r) := by
  unfold State.applyResult
  repeat' (first | with_reducible exact h | with_reducible apply State.unreadable_moves |
      with_reducible apply State.applyTag_moves | with_reducible apply State.applyNoBin_moves | dsimp only | split)

theorem State.failTagged_moves {s t : State} (h : Moves s t) (s0 : State) (bins : List Nat) :
    Moves s (State.failTagged s0 t bins) := by
  unfold State.failTagged
  refine Moves.foldl (fun s u b h => ?_) bins h
  repeat' (first | with_reducible exact h | with_reducible apply State.failMisplaced_moves | split)

theorem State.tag_moves {s t : State} (h : Moves s t) (c : Crane) (hd : Handle) (r : TagResult) :
    Moves s (t.tag c hd r).1 := by
  unfold State.tag
  repeat' (first | with_reducible exact h | with_reducible apply State.endOrder_moves |
      with_reducible apply State.applyResult_moves | with_reducible apply State.failTagged_moves |
      simp only [refuse] | dsimp only | split)

theorem ownTag_moves {s t : State} (h : Moves s t) (p : Port) (a : TagArgs) : Moves s (ownTag p a t).1 := by
  unfold ownTag
  split
  · exact onCrane_moves h p (fun c => State.tag_moves h c _ _)
  · exact h

theorem State.raiseBypass_moves {s t : State} (h : Moves s t) (i : Nat) :
    Moves s (t.raiseBypass i) := by
  unfold State.raiseBypass
  repeat' (first | with_reducible exact h | with_reducible apply State.setOrder_moves | dsimp only | split)

theorem State.dispatchBay_moves {s t : State} (h : Moves s t) (i : Nat) (o : Order) (hd : Handle) :
    Moves s (t.dispatchBay i o hd) := by
  unfold State.dispatchBay
  repeat' (first | with_reducible exact h | with_reducible apply State.setOrder_moves |
      with_reducible apply State.bayTo_moves | with_reducible apply State.fetch_moves | dsimp only | split)

theorem State.markDispatched_moves {s t : State} (h : Moves s t) (i : Nat) :
    Moves s (t.markDispatched i) := by
  unfold State.markDispatched
  repeat' (first | with_reducible exact h | with_reducible apply State.setOrder_moves | dsimp only | split)

theorem State.dispatch_moves {s t : State} (h : Moves s t) (x : Crane) (i : Nat) :
    Moves s (t.dispatch x i) := by
  unfold State.dispatch
  repeat' (first | with_reducible exact h | with_reducible apply State.startTimer_moves |
      with_reducible apply State.dispatchBay_moves | with_reducible apply State.markDispatched_moves |
      refine State.setCrane_moves ?_ _ _ ⟨rfl, rfl, rfl, rfl, rfl, rfl, rfl, rfl, rfl⟩ | dsimp only | split)

theorem State.noneForm_moves {s t : State} (h : Moves s t) (x : Crane) :
    Moves s (t.noneForm x).1 := by
  unfold State.noneForm
  repeat' (first | with_reducible exact h | refine State.setCrane_moves ?_ _ _ ⟨rfl, rfl, rfl, rfl, rfl, rfl, rfl, rfl, rfl⟩)

theorem State.setLevel_moves {s t : State} (h : Moves s t) (x : Crane) (level : Nat) :
    Moves s (t.setLevel x level) := by
  unfold State.setLevel
  repeat' (first | with_reducible exact h | refine State.setCrane_moves ?_ _ _ ⟨rfl, rfl, rfl, rfl, rfl, rfl, rfl, rfl, rfl⟩)

theorem State.wantedBay_moves {s t : State} (h : Moves s t) (st : Station) (b : Nat) :
    Moves s (t.wantedBay st b) := by
  unfold State.wantedBay
  repeat' (first | with_reducible exact h | with_reducible apply State.autoStow_moves | dsimp only | split)

theorem State.wantedBays_moves {s t : State} (h : Moves s t) (x : Crane) :
    Moves s (t.wantedBays x) := by
  unfold State.wantedBays
  repeat' (first | with_reducible exact h | with_reducible apply State.wantedBay_moves)

theorem State.createOrphan_moves {s t u : State} {hd : Handle} (h : Moves s t) {x : Crane}
    (e : t.createOrphan x = some (u, hd)) : Moves s u := by
  unfold State.createOrphan at e
  repeat' (first | (exact absurd e.symm (Option.some_ne_none _)) | exact State.create_moves h e | split at e)

theorem State.nextOrphan_moves {s t : State} (h : Moves s t) (x : Crane) :
    Moves s (t.nextOrphan x).1 := by
  unfold State.nextOrphan
  repeat' (first | with_reducible exact h | with_reducible apply State.noneForm_moves |
      refine State.setCrane_moves ?_ _ _ ⟨rfl, rfl, rfl, rfl, rfl, rfl, rfl, rfl, rfl⟩ |
      refine State.createOrphan_moves ?_ (by assumption) | dsimp only | split)

theorem State.nextVerify_moves {s t : State} (h : Moves s t) (x : Crane) :
    Moves s (t.nextVerify x).1 := by
  unfold State.nextVerify
  repeat' (first | with_reducible exact h | with_reducible apply State.dispatch_moves |
      with_reducible apply State.noneForm_moves | refine State.createVerify_moves ?_ (by assumption) | dsimp only |
      split)

theorem State.nextSelect_moves {s t : State} (h : Moves s t) (x : Crane) (level : Nat) :
    Moves s (t.nextSelect x level).1 := by
  unfold State.nextSelect
  split
  · exact State.dispatch_moves (Moves.foldl (fun _ _ j h => State.raiseBypass_moves h j) _ h) _ _
  · exact State.nextVerify_moves h _

theorem State.next_moves {s t : State} (h : Moves s t) (x : Crane) (level : Nat) :
    Moves s (t.next x level).1 := by
  unfold State.next
  repeat' (first | with_reducible exact h | with_reducible apply State.setLevel_moves |
      with_reducible apply State.wantedBays_moves | with_reducible apply State.nextOrphan_moves |
      with_reducible apply State.nextSelect_moves |
      refine State.setCrane_moves ?_ _ _ ⟨rfl, rfl, rfl, rfl, rfl, rfl, rfl, rfl, rfl⟩ | dsimp only | split)

theorem ownNext_moves {s t : State} (h : Moves s t) (p : Port) (level : Nat) : Moves s (ownNext p level t).1 := by
  unfold ownNext
  split
  · exact onCrane_moves h p (fun c => State.next_moves h c level)
  · exact h

theorem withActive_moves {s t : State} (h : Moves s t) (c : Crane) (hd : Handle) {f : Order → State × Reply}
    (hf : ∀ o, Moves s (f o).1) : Moves s (withActive t c hd f).1 := by
  unfold withActive refuse
  split
  · exact h
  · exact hf _

theorem State.markLoaded_moves {s t : State} (h : Moves s t) (i : Nat) :
    Moves s (t.markLoaded i) := by
  unfold State.markLoaded
  repeat' (first | with_reducible exact h | with_reducible apply State.setOrder_moves |
      with_reducible apply State.startTimer_moves | dsimp only | split)

theorem State.loadRedestine_moves {s t : State} (h : Moves s t) (i : Nat) :
    Moves s (t.loadRedestine i) := by
  unfold State.loadRedestine
  repeat' (first | with_reducible exact h | with_reducible apply State.redestine_moves | dsimp only | split)

theorem State.finishLoad_moves {s t : State} (h : Moves s t) (i : Nat) :
    Moves s (t.finishLoad i).1 := by
  unfold State.finishLoad
  repeat' (first | with_reducible exact h | with_reducible apply State.markLoaded_moves |
      with_reducible apply State.loadRedestine_moves)

theorem State.loadFrom_moves {s t : State} (h : Moves s t) (c : Crane) (i : Nat) (o : Order) (b : Nat) :
    Moves s (t.loadFrom c i o b).1 := by
  unfold State.loadFrom
  repeat' (first | with_reducible exact h | with_reducible apply State.loadFromCell_moves |
      with_reducible apply State.loadFromBay_moves | with_reducible apply State.finishLoad_moves |
      simp only [refuse] | dsimp only | split)

theorem State.load_moves {s t : State} (h : Moves s t) (c : Crane) (hd : Handle) : Moves s (t.load c hd).1 := by
  unfold State.load
  refine withActive_moves h c hd (fun o => ?_)
  unfold refuse
  split
  · exact h
  · exact State.loadFrom_moves h _ _ _ _
  · exact h
  · exact h

theorem ownLoad_moves {s t : State} (h : Moves s t) (p : Port) (a : Nat × Nat) : Moves s (ownLoad p a t).1 := by
  unfold ownLoad
  split
  · exact onCrane_moves h p (fun c => State.load_moves h c _)
  · exact h

theorem State.doneFetch_moves {s t : State} (h : Moves s t) (c : Crane) (hd : Handle) (o : Order) (b : Nat) :
    Moves s (t.doneFetch c hd o b).1 := by
  unfold State.doneFetch
  repeat' (first | with_reducible exact h | with_reducible apply State.raise_moves |
      with_reducible apply State.deliverToBay_moves | with_reducible apply State.endOrder_moves |
      simp only [refuse] | dsimp only | split)

theorem State.doneStow_moves {s t : State} (h : Moves s t) (c : Crane) (hd : Handle) (o : Order) (b : Nat)
    (cell : Option Nat) :
    Moves s (t.doneStow c hd o b cell).1 := by
  unfold State.doneStow
  repeat' (first | with_reducible exact h | with_reducible apply State.deliverToCell_moves |
      with_reducible apply State.endOrder_moves | simp only [refuse] | dsimp only | split)

theorem State.doneReport_moves {s t : State} (h : Moves s t) (c : Crane) (hd : Handle) (cell : Option Nat) :
    Moves s (t.doneReport c hd cell).1 := by
  unfold State.doneReport
  repeat' (first | with_reducible exact h | with_reducible apply State.fetch_moves |
      with_reducible apply State.doneFetch_moves | with_reducible apply State.doneStow_moves | simp only [refuse] |
      dsimp only | split)

theorem ownDone_moves {s t : State} (h : Moves s t) (p : Port) (a : ReportArgs) : Moves s (ownDone p a t).1 := by
  unfold ownDone
  split
  · exact onCrane_moves h p (fun c => State.doneReport_moves h c _ _)
  · exact h

theorem State.stillWanted_moves {s t : State} (h : Moves s t) (o : Order) :
    Moves s (t.stillWanted o) := by
  unfold State.stillWanted
  repeat' (first | with_reducible exact h | with_reducible apply State.setStowWanted_moves | dsimp only | split)

theorem State.unableEnd_moves {s t : State} (h : Moves s t) (i : Nat) (o : Order) (f : FinalState) (x : EndOutcome) :
    Moves s (t.unableEnd i o f x).1 := by
  unfold State.unableEnd
  repeat' (first | with_reducible exact h | with_reducible apply State.endOrder_moves |
      with_reducible apply State.stillWanted_moves)

theorem State.unableEmpty_moves {s t : State} (h : Moves s t) (i : Nat) (o : Order) (cell : Option Nat) :
    Moves s (t.unableEmpty i o cell).1 := by
  unfold State.unableEmpty
  repeat' (first | with_reducible exact h | with_reducible apply State.enterSuspect_moves |
      with_reducible apply State.unableEnd_moves | simp only [refuse] | dsimp only | split)

theorem State.unableOccupied_moves {s t : State} (h : Moves s t) (i : Nat) (o : Order) (cell : Option Nat) :
    Moves s (t.unableOccupied i o cell).1 := by
  unfold State.unableOccupied
  repeat' (first | with_reducible exact h | with_reducible apply State.enterSuspect_moves |
      with_reducible apply State.startTimer_moves | with_reducible apply State.redestine_moves |
      simp only [refuse] | dsimp only | split)

theorem State.blockNamed_moves {s t : State} (h : Moves s t) (i n : Nat) :
    Moves s (t.blockNamed i n) := by
  unfold State.blockNamed
  repeat' (first | with_reducible exact h | with_reducible apply State.enterBlocked_moves |
      with_reducible apply State.redestine_moves | with_reducible apply State.failMisplaced_moves | dsimp only |
      split)

theorem State.unableBlocked_moves {s t : State} (h : Moves s t) (i : Nat) (o : Order) (cell : Option Nat) :
    Moves s (t.unableBlocked i o cell).1 := by
  unfold State.unableBlocked
  repeat' (first | with_reducible exact h | with_reducible apply State.unableEnd_moves |
      with_reducible apply State.blockNamed_moves | simp only [refuse] | dsimp only | split)

theorem State.unableDispatched_moves {s t : State} (h : Moves s t) (i : Nat) (o : Order) (r : UnableReason)
    (cell : Option Nat) :
    Moves s (t.unableDispatched i o r cell).1 := by
  unfold State.unableDispatched
  repeat' (first | with_reducible exact h | with_reducible apply State.unableEnd_moves |
      with_reducible apply State.unableEmpty_moves | with_reducible apply State.unableBlocked_moves |
      simp only [refuse] | dsimp only | split)

theorem State.unableLoaded_moves {s t : State} (h : Moves s t) (i : Nat) (o : Order) (r : UnableReason)
    (cell : Option Nat) :
    Moves s (t.unableLoaded i o r cell).1 := by
  unfold State.unableLoaded
  repeat' (first | with_reducible exact h | with_reducible apply State.unableEnd_moves |
      with_reducible apply State.unableOccupied_moves | with_reducible apply State.unableBlocked_moves |
      simp only [refuse] | dsimp only | split)

theorem State.unable_moves {s t : State} (h : Moves s t) (c : Crane) (hd : Handle) (r : UnableReason)
    (cell : Option Nat) : Moves s (t.unable c hd r cell).1 := by
  unfold State.unable
  refine withActive_moves h c hd (fun o => ?_)
  unfold refuse
  split
  · exact State.unableDispatched_moves h _ _ _ _
  · exact State.unableLoaded_moves h _ _ _ _
  · exact h

theorem ownUnable_moves {s t : State} (h : Moves s t) (p : Port) (a : ReportArgs) : Moves s (ownUnable p a t).1 := by
  unfold ownUnable
  split
  · exact h
  · split
    · exact onCrane_moves h p (fun c => State.unable_moves h c _ _ _)
    · exact h

theorem State.stall_moves {s t : State} (h : Moves s t) (i : Nat) (o : Order) :
    Moves s (t.stall i o) := by
  unfold State.stall
  repeat' (first | with_reducible exact h | with_reducible apply State.setOrder_moves |
      with_reducible apply State.raise_moves)

/-! ### Zones and shutters -/

/-- The state of a zone moves between the four that hold the alarm latch, or between the three that do not, without its timer. -/
theorem ZoneSound.to {z : Zone} (h : ZoneSound z) {x : ZoneState} (ht : z.timer = none ∨ x = .clearing)
    (hx : z.state ∈ [.clearing, .sealing, .sealed, .obstructed] ↔ x ∈ [.clearing, .sealing, .sealed, .obstructed]) :
    ZoneSound { z with state := x } where
  latch := by
    have := h.latch
    simp only [List.mem_cons, List.not_mem_nil, or_false] at hx
    exact this.trans hx
  timer e := ht.resolve_left e

/-- Outside CLEARING a sound zone's timer stands stopped. -/
theorem ZoneSound.stopped {z : Zone} (h : ZoneSound z) (hz : z.state ≠ .clearing) : z.timer = none :=
  Classical.byContradiction fun e => hz (h.timer e)

theorem raise_zones (s : State) (p : Port) (n : Notice) : (s.raise p n).zones = s.zones := by cases p <;> rfl

theorem raise_shutters (s : State) (p : Port) (n : Notice) : (s.raise p n).shutters = s.shutters := by cases p <;> rfl

theorem raiseAll_zones (ps : List Port) (n : Notice) (s : State) : (s.raiseAll ps n).zones = s.zones := by
  induction ps generalizing s with
  | nil => rfl
  | cons p ps ih => exact (ih _).trans (raise_zones s p n)

theorem raiseAll_shutters (ps : List Port) (n : Notice) (s : State) : (s.raiseAll ps n).shutters = s.shutters := by
  induction ps generalizing s with
  | nil => rfl
  | cons p ps ih => exact (ih _).trans (raise_shutters s p n)

theorem unsealZone_zones (z : Nat) (s : State) : (s.unsealZone z).zones = s.zones := by
  unfold State.unsealZone
  induction zoneSegments z generalizing s with
  | nil => rfl
  | cons n ns ih => exact ih _

theorem sealZone_zones (z : Nat) (s : State) : (s.sealZone z).zones = s.zones := by
  unfold State.sealZone
  induction zoneSegments z generalizing s with
  | nil => rfl
  | cons n ns ih => exact ih _

/-- A zone's new state stands in its record, and no other zone changes (R168). -/
theorem zoneTo_zone (s : State) (z y : Nat) (x : ZoneState) :
    (s.zoneTo z x).zone y = if y = z then { s.zone z with state := x } else s.zone y := by
  unfold State.zoneTo
  rw [State.zone, raiseAll_zones, ← State.zone, State.setZone_zone]

theorem State.zoneTo_moves {s t : State} (h : Moves s t) (z : Nat) (x : ZoneState)
    (hx : ZoneSound (t.zone z) → ZoneSound { t.zone z with state := x }) : Moves s (t.zoneTo z x) := by
  unfold State.zoneTo
  exact State.raiseAll_moves (State.setZone_moves h _ _ hx) _ _

theorem State.returnToService_moves {s t : State} (h : Moves s t) (z : Nat) (hz : (t.zone z).state = .recovering) :
    Moves s (t.returnToService z) := by
  have h1 := State.unsealZone_moves (State.zoneTo_moves h z .inService
    (fun a => a.to (.inl (a.stopped (by simp [hz]))) (by simp [hz]))) z
  unfold State.returnToService
  dsimp only
  split
  · refine State.zoneTo_moves h1 z .degraded (fun a => ?_)
    rw [State.zone, unsealZone_zones, ← State.zone, zoneTo_zone, if_pos rfl] at a ⊢
    exact a.to (.inl (a.stopped (by simp))) (by simp)
  · exact h1

theorem State.zoneOnClosed_moves {s t : State} (h : Moves s t) (z : Nat) :
    Moves s (t.zoneOnClosed z) := by
  unfold State.zoneOnClosed
  split
  · next c =>
    refine State.zoneTo_moves h _ _ (fun a => a.to (.inl (a.stopped ?_)) ?_) <;> rcases c.1 with e | e <;> simp [e]
  · exact h

theorem State.zoneOnOpen_moves {s t : State} (h : Moves s t) (z : Nat) :
    Moves s (t.zoneOnOpen z) := by
  unfold State.zoneOnOpen
  split
  · next c => exact State.returnToService_moves h z c.1
  · exact h

theorem State.zoneOnJammed_moves {s t : State} (h : Moves s t) (z : Nat) :
    Moves s (t.zoneOnJammed z) := by
  unfold State.zoneOnJammed
  split
  · next c =>
    refine State.zoneTo_moves h _ _ (fun a => a.to (.inl (a.stopped ?_)) ?_) <;> rcases c with e | e <;> simp [e]
  · exact h

/-- The record of a shutter on entry to a state is sound (R174). -/
theorem shutterSound_enter (s : State) (r : Shutter) (x : ShutterState) :
    ShutterSound { r with state := x, timer := s.travelTimer x } := by
  cases x <;> simp [ShutterSound, State.travelTimer]

theorem State.shutterTo_moves {s t : State} (h : Moves s t) (k : Nat) (x : ShutterState) (cause : ShutCause) :
    Moves s (t.shutterTo k x cause) := by
  unfold State.shutterTo
  exact State.raiseAll_moves (State.setShutter_moves h _ _ (fun _ => shutterSound_enter _ _ _)) _ _

theorem State.moveShutter_moves {s t : State} (h : Moves s t) (k : Nat) (x : ShutterState) (cause : ShutCause) :
    Moves s (t.moveShutter k x cause) := by
  unfold State.moveShutter
  repeat' (first | with_reducible exact h | with_reducible apply State.zoneOnClosed_moves |
      with_reducible apply State.zoneOnOpen_moves | with_reducible apply State.zoneOnJammed_moves |
      with_reducible apply State.shutterTo_moves | dsimp only | split)

theorem State.enterClosing_moves {s t : State} (h : Moves s t) (k : Nat) (cause : ShutCause) :
    Moves s (t.enterClosing k cause) := by
  unfold State.enterClosing
  repeat' (first | with_reducible exact h | with_reducible apply State.moveShutter_moves | dsimp only | split)

theorem State.enterOpening_moves {s t : State} (h : Moves s t) (k : Nat) (cause : ShutCause) :
    Moves s (t.enterOpening k cause) := by
  unfold State.enterOpening
  repeat' (first | with_reducible exact h | with_reducible apply State.moveShutter_moves | dsimp only | split)

theorem State.takeDemand_moves {s t : State} (h : Moves s t) (k : Nat) :
    Moves s (t.takeDemand k) := by
  unfold State.takeDemand
  repeat' (first | with_reducible exact h | with_reducible apply State.moveShutter_moves | dsimp only | split)

theorem State.endDemand_moves {s t : State} (h : Moves s t) (k : Nat) :
    Moves s (t.endDemand k) := by
  unfold State.endDemand
  repeat' (first | with_reducible exact h | with_reducible apply State.enterOpening_moves | dsimp only | split)

theorem State.fateOne_moves {s t : State} (h : Moves s t) (z i : Nat) :
    Moves s (t.fateOne z i) := by
  unfold State.fateOne
  repeat' (first | with_reducible exact h | with_reducible apply State.redestine_moves |
      with_reducible apply State.endOrder_moves | with_reducible apply State.fetch_moves | dsimp only | split)

theorem State.orderFate_moves {s t : State} (h : Moves s t) (z : Nat) : Moves s (t.orderFate z) :=
  Moves.foldl (fun _ _ i h => State.fateOne_moves h z i) _ h

theorem State.raiseEvac_moves {s t : State} (h : Moves s t) (z : Nat) (c : Crane) :
    Moves s (t.raiseEvac z c) := by
  unfold State.raiseEvac
  repeat' (first | with_reducible exact h | with_reducible apply State.raise_moves | dsimp only | split)

/-- The start of a demand moves the shutter alone (R175). -/
theorem takeDemand_zone (s : State) (k z : Nat) : (s.takeDemand k).zone z = s.zone z := by
  have e (c : ShutCause) : (s.shutterTo k .hold c).zones = s.zones := by
    unfold State.shutterTo
    rw [raiseAll_zones, State.setShutter_zones]
  unfold State.takeDemand
  split
  · exact congrArg (tableGet .cold · z) (e .demand)
  · exact congrArg (tableGet .cold · z) (e .demand)
  all_goals rfl

theorem takeDemands_zone (l : List Nat) (z : Nat) (s : State) :
    (l.foldl (fun t k => t.takeDemand k) s).zone z = s.zone z := by
  induction l generalizing s with
  | nil => rfl
  | cons k l ih => exact (ih _).trans (takeDemand_zone s k z)

theorem State.alarm_moves {s t : State} (h : Moves s t) (z : Nat) : Moves s (t.alarm z) := by
  unfold State.alarm
  dsimp only
  apply State.raiseAll_moves
  apply State.raiseEvac_moves
  apply State.raiseEvac_moves
  apply State.orderFate_moves
  apply State.setZone_moves
  · refine Moves.foldl (fun _ _ k h => State.takeDemand_moves h k) _ ?_
    exact State.sealZone_moves (State.setZone_moves h _ _ (fun a => ⟨by simp, fun _ => rfl⟩)) _
  · intro a
    have e : (((zoneShutters z).foldl (fun t k => t.takeDemand k)
        ((t.setZone z { t.zone z with state := .clearing, latch := true }).sealZone z)).zone z) =
          { t.zone z with state := .clearing, latch := true } := by
      rw [takeDemands_zone, State.zone, sealZone_zones, ← State.zone, State.setZone_zone_same]
    rw [e]
    exact ⟨by simp, fun _ => rfl⟩

theorem State.takeClass_moves {s t : State} (h : Moves s t) (z : Nat) (x : LoopClass) :
    Moves s (t.takeClass z x) := by
  unfold State.takeClass
  split
  · exact State.alarm_moves h z
  · exact State.alarm_moves h z
  · exact State.alarm_moves h z
  · next e => exact State.zoneTo_moves h z _ (fun a => a.to (.inl (a.stopped (by simp [e]))) (by simp [e]))
  · next e => exact State.zoneTo_moves h z _ (fun a => a.to (.inl (a.stopped (by simp [e]))) (by simp [e]))
  · next e => exact State.zoneTo_moves h z _ (fun a => a.to (.inl (a.stopped (by simp [e]))) (by simp [e]))
  · exact h

theorem State.sampleLoop_moves {s t : State} (h : Moves s t) (z value : Nat) (manual : Bool) :
    Moves s (t.sampleLoop z value manual) := by
  unfold State.sampleLoop
  repeat' (first | with_reducible exact h | with_reducible apply State.setLoop_moves |
      with_reducible apply State.setManual_moves | with_reducible apply State.takeClass_moves | dsimp only | split)

theorem State.cutCrane_moves {s t : State} (h : Moves s t) (z : Nat) (c : Crane) :
    Moves s (t.cutCrane z c) := by
  unfold State.cutCrane
  repeat' (first | with_reducible exact h | with_reducible apply State.latchTrip_moves | dsimp only | split)

theorem latchTrip_zones (s : State) (c : Crane) (x : TripCause) : (s.latchTrip c x).zones = s.zones := by
  unfold State.latchTrip
  split
  · rfl
  · dsimp only
    rw [raiseAll_zones]
    cases c <;> rfl

theorem cutCrane_zone (s : State) (z y : Nat) (c : Crane) : (s.cutCrane z c).zone y = s.zone y := by
  unfold State.cutCrane
  split
  · rw [State.zone, latchTrip_zones, ← State.zone]
  · rfl

theorem State.endClearance_moves {s t : State} (h : Moves s t) (z : Nat) (hz : (t.zone z).state = .clearing) :
    Moves s (t.endClearance z) := by
  have h1 := State.setZone_moves h z { t.zone z with timer := none } (fun a => ⟨a.latch, nofun⟩)
  have h2 := State.zoneTo_moves h1 z .sealing
    (fun a => a.to (.inl (by rw [State.setZone_zone_same])) (by rw [State.setZone_zone_same]; simp [hz]))
  have e : (((t.setZone z { t.zone z with timer := none }).zoneTo z .sealing).zone z).state = .sealing := by
    rw [zoneTo_zone, if_pos rfl]
  unfold State.endClearance
  dsimp only
  split
  · exact State.zoneTo_moves h2 z .sealed (fun a => a.to (.inl (a.stopped (by simp [e]))) (by simp [e]))
  · split
    · exact State.zoneTo_moves h2 z .obstructed (fun a => a.to (.inl (a.stopped (by simp [e]))) (by simp [e]))
    · exact h2

theorem State.releaseDemand_moves {s t : State} (h : Moves s t) (k : Nat) :
    Moves s (t.releaseDemand k) := by
  unfold State.releaseDemand
  repeat' (first | with_reducible exact h | with_reducible apply State.endDemand_moves | dsimp only | split)

theorem State.takeReset_moves {s t : State} (h : Moves s t) (z : Nat) (hz : t.resettable z = true) :
    Moves s (t.takeReset z) := by
  have hs : (t.zone z).state = .sealed ∨ (t.zone z).state = .obstructed := by simpa [State.resettable] using hz
  have h1 : Moves s ((t.setZone z { t.zone z with latch := false }).zoneTo z .recovering) := by
    unfold State.zoneTo
    rw [State.setZone_zone_same, State.setZone_setZone]
    refine State.raiseAll_moves (State.setZone_moves h _ _ (fun a => ⟨by simp, fun e => ?_⟩)) _ _
    exact absurd (a.stopped (by rcases hs with e | e <;> simp [e])) e
  unfold State.takeReset
  dsimp only
  apply State.zoneOnOpen_moves
  exact Moves.foldl (fun _ _ k h => State.releaseDemand_moves h k) _ h1

theorem State.offerReset_moves {s t : State} (h : Moves s t) (z : Nat) :
    Moves s (t.offerReset z) := by
  unfold State.offerReset
  split
  · next c => exact State.takeReset_moves h z (by simp_all)
  · exact h

theorem ownFrst_moves {s t : State} (h : Moves s t) (z : Nat) :
    Moves s (ownFrst z t).1 := by
  unfold ownFrst
  split
  · exact h
  · split
    · exact h
    · next c =>
      split
      · exact h
      · exact State.takeReset_moves h z (by simpa using c)

theorem State.tripSpanning_moves {s t : State} (h : Moves s t) (k : Nat) (c : Crane) :
    Moves s (t.tripSpanning k c) := by
  unfold State.tripSpanning
  repeat' (first | with_reducible exact h | with_reducible apply State.latchTrip_moves | dsimp only | split)

theorem State.drift_moves {s t : State} (h : Moves s t) (k : Nat) :
    Moves s (t.drift k) := by
  unfold State.drift
  repeat' (first | with_reducible exact h | with_reducible apply State.moveShutter_moves)

theorem State.limitEdge_moves {s t : State} (h : Moves s t) (k : Nat) (i : LimitSwitch) (level : Bool) :
    Moves s (t.limitEdge k i level) := by
  have h1 := State.setShutter_moves h k ((t.shutter k).withLimit i level) (fun a => by cases i <;> exact a)
  unfold State.limitEdge
  repeat' (first | with_reducible exact h1 |
      with_reducible apply State.moveShutter_moves | with_reducible apply State.tripSpanning_moves |
      with_reducible apply State.drift_moves | dsimp only | split)

theorem State.sopen_moves {s t : State} (h : Moves s t) (k : Nat) :
    Moves s (t.sopen k).1 := by
  unfold State.sopen
  repeat' (first | with_reducible exact h | with_reducible apply State.enterClosing_moves |
      with_reducible apply State.enterOpening_moves | simp only [refuseDetail] | dsimp only | split)

theorem ownSopen_moves {s t : State} (h : Moves s t) (k : Nat) :
    Moves s (ownSopen k t).1 := by
  unfold ownSopen
  repeat' (first | with_reducible exact h | with_reducible apply State.sopen_moves | simp only [refuse] |
      dsimp only | split)

theorem State.obstruct_moves {s t : State} (h : Moves s t) (z : Nat) :
    Moves s (t.obstruct z) := by
  unfold State.obstruct
  split
  · next c => exact State.zoneTo_moves h z _ (fun a => a.to (.inl (a.stopped (by simp [c]))) (by simp [c]))
  · exact h

theorem State.handShutter_moves {s t : State} (h : Moves s t) (c : Crane) (k : Nat) :
    Moves s (t.handShutter c k) := by
  unfold State.handShutter
  repeat' (first | with_reducible exact h | with_reducible apply State.enterClosing_moves |
      with_reducible apply State.obstruct_moves | dsimp only | split)

theorem State.handOff_moves {s t : State} (h : Moves s t) (c : Crane) : Moves s (t.handOff c) :=
  Moves.foldl (fun _ _ k h => State.handShutter_moves h c k) _ h

theorem State.tickGen_moves {s t : State} (h : Moves s t) (k : Nat) :
    Moves s (t.tickGen k) := by
  unfold State.tickGen
  repeat' (first | with_reducible exact h | with_reducible apply State.setGen_moves)

theorem State.setFilters_moves {s t : State} (h : Moves s t) (c : Crane) (f : Filters) :
    Moves s (t.setFilters c f) := by
  unfold State.setFilters
  repeat' (first | with_reducible exact h | refine State.setCrane_moves ?_ _ _ ⟨rfl, rfl, rfl, rfl, rfl, rfl, rfl, rfl, rfl⟩)

theorem State.phaseChange_moves {s t : State} (h : Moves s t) (c : Crane) (x : PhaseStep) :
    Moves s (t.phaseChange c x) := by
  unfold State.phaseChange
  repeat' (first | with_reducible exact h | with_reducible apply State.tripUnreference_moves |
      refine State.setCrane_moves ?_ _ _ ⟨rfl, rfl, rfl, rfl, rfl, rfl, rfl, rfl, rfl⟩ | dsimp only | split)

theorem State.settlePhases_moves {s t : State} (h : Moves s t) (c : Crane) (one two : Bool) :
    Moves s (t.settlePhases c one two) := by
  unfold State.settlePhases
  repeat' (first | with_reducible exact h | with_reducible apply State.setFilters_moves |
      with_reducible apply State.phaseChange_moves)

theorem State.indexEdge_moves {s t : State} (h : Moves s t) (c : Crane) :
    Moves s (t.indexEdge c) := by
  unfold State.indexEdge
  repeat' (first | with_reducible exact h | with_reducible apply State.tripUnreference_moves |
      refine State.setCrane_moves ?_ _ _ ⟨by first | rfl | simp_all, rfl, rfl, rfl, rfl, rfl, rfl, rfl, rfl⟩ | dsimp only |
      split)

theorem State.settleEdge_moves {s t : State} (h : Moves s t) (c : Crane) (i : EncInput) {act : State → State}
    (ha : ∀ (s t : State), Moves s t → Moves s (act t)) : Moves s (t.settleEdge c i act) := by
  unfold State.settleEdge
  dsimp only
  repeat' (first | with_reducible apply ha | exact State.setFilters_moves h _ _ | split)

theorem State.filterWindow_moves {s t : State} (h : Moves s t) (c : Crane) (y : FilterEnd) :
    Moves s (t.filterWindow c y) := by
  unfold State.filterWindow
  split
  · exact State.settlePhases_moves h _ _ _
  · exact State.settlePhases_moves h _ _ _
  · exact State.settlePhases_moves h _ _ _
  · exact State.settleEdge_moves h _ _ (fun _ _ h => State.indexEdge_moves h c)
  · exact State.settleEdge_moves h _ _ (fun _ _ h => State.captureHome_moves h c)

theorem State.samplePosition_moves {s t : State} (h : Moves s t) (c : Crane) :
    Moves s (t.samplePosition c) := by
  unfold State.samplePosition
  repeat' (first | with_reducible exact h | with_reducible apply State.tripUnreference_moves |
      refine State.setCrane_moves ?_ _ _ ⟨by first | rfl | simp_all, rfl, rfl, rfl, rfl, rfl, rfl, rfl, rfl⟩ | dsimp only |
      split)

theorem State.sampleSpeed_moves {s t : State} (h : Moves s t) (c : Crane) :
    Moves s (t.sampleSpeed c) := by
  unfold State.sampleSpeed
  repeat' (first | with_reducible exact h | refine State.setCrane_moves ?_ _ _ ⟨rfl, rfl, rfl, rfl, rfl, rfl, rfl, rfl, rfl⟩)

theorem State.sampleLimit_moves {s t : State} (h : Moves s t) (c : Crane) :
    Moves s (t.sampleLimit c) := by
  unfold State.sampleLimit
  repeat' (first | with_reducible exact h | with_reducible apply State.latchTrip_moves | dsimp only | split)

theorem State.sampleMargin_moves {s t : State} (h : Moves s t) (c : Crane) :
    Moves s (t.sampleMargin c) := by
  unfold State.sampleMargin
  repeat' (first | with_reducible exact h | refine State.setCrane_moves ?_ _ _ ⟨rfl, rfl, rfl, rfl, rfl, rfl, rfl, rfl, rfl⟩)

theorem State.sampleChecks_moves {s t : State} (h : Moves s t) (c : Crane) :
    Moves s ((t.sampleEnvelope c).sampleChecks c) := by
  have h1 : Moves s (if (t.sampleEnvelope c).touchedHeld c then t.sampleEnvelope c
      else (t.sampleEnvelope c).latchTrip c .envelope) := by
    have e : Moves s (t.takeEnvelope c) := h.snoc (.envelope t c)
    unfold State.takeEnvelope at e
    dsimp only at e
    split
    · next hh =>
      rw [hh] at e
      exact e
    · next hh =>
      rw [Bool.eq_false_iff.mpr hh, Bool.false_or] at e
      unfold State.latchTrip
      split
      · next hx =>
        rw [if_pos hx] at e
        exact e
      · next hx =>
        rw [if_neg hx] at e
        exact State.raiseAll_moves e _ _
  unfold State.sampleChecks
  dsimp only
  generalize (if (t.sampleEnvelope c).touchedHeld c then t.sampleEnvelope c
    else (t.sampleEnvelope c).latchTrip c .envelope) = u at h1 ⊢
  split
  · exact State.latchTrip_moves h1 c .barrier
  · exact h1

theorem State.positionSample_moves {s t : State} (h : Moves s t) (c : Crane) :
    Moves s (t.positionSample c) := by
  unfold State.positionSample
  repeat' (first | with_reducible exact h | with_reducible apply State.refreshPermit_moves |
      with_reducible apply State.handOff_moves | with_reducible apply State.samplePosition_moves |
      with_reducible apply State.sampleSpeed_moves | with_reducible apply State.sampleLimit_moves |
      with_reducible apply State.sampleMargin_moves | with_reducible apply State.sampleChecks_moves)

theorem State.takeParam_moves {s t : State} (h : Moves s t) (q : Param) (v : Nat) (hc : codedOk q v = true)
    (ht : t.thresholdsOk q (valueTaken q v) = true) : Moves s (t.takeParam q (valueTaken q v)) := by
  unfold State.takeParam
  split
  · exact h
  · exact h.snoc (.param t q v hc ht)

theorem State.setParam_moves {s t : State} (h : Moves s t) (code : Nat) (q : Param) (v : Nat) :
    Moves s (t.setParam code q v).1 := by
  unfold State.setParam refuse
  repeat' (first | with_reducible exact h | split)
  exact State.takeParam_moves h q v (by simp_all) (by simp_all)

theorem ownSet_moves {s t : State} (h : Moves s t) (a : Nat × Nat) :
    Moves s (ownSet a t).1 := by
  unfold ownSet
  repeat' (first | with_reducible exact h | with_reducible apply State.setParam_moves | simp only [refuse] |
      dsimp only | split)

theorem ownRstrt_moves {s t : State} (h : Moves s t) (y : Unit) : Moves s (ownRstrt y t).1 :=
  State.setPort_moves h .S _ (.stop (t.port .S))

theorem State.sent_moves {s t : State} (h : Moves s t) (p : Port) (l : StartLevels) (m : Message) : Moves s (t.sent p l m) := by
  unfold State.sent
  split
  · exact h.snoc (.warm t _)
  · exact State.pump_moves (State.setPort_moves h _ _ (.sent _))

theorem State.nakItem_moves {s t : State} (h : Moves s t) (p : Port) (code : Byte) (r : Reason) :
    Moves s (t.nakItem p code r) :=
  finish_moves t (State.respond_moves (State.setPort_moves h _ _ (.takeItem _)) _ _)

theorem State.breakTrip_moves {s t : State} (h : Moves s t) (p : Port) :
    Moves s (t.breakTrip p) := by
  unfold State.breakTrip
  repeat' (first | with_reducible exact h | with_reducible apply State.latchTrip_moves | dsimp only | split)

theorem State.takeBreak_moves {s t : State} (h : Moves s t) (p : Port) : Moves s (t.takeBreak p) :=
  State.breakTrip_moves (State.setPort_moves h _ _ (.takeBreak _)) p

theorem State.receive_moves {s t : State} (h : Moves s t) (p : Port) (f : RxFrame) : Moves s (t.receive p f) := by
  unfold State.receive
  dsimp only
  have h1 := State.setPort_moves h p _ (.noise (t.port p) (frameNoisy f))
  split
  · exact State.takeBreak_moves h1 p
  · exact State.setPort_moves h1 _ _ (.arrive _ f)

/-! ## The commands -/

theorem State.goodMessage_moves {s t : State} (h : Moves s t) (p : Port) : Moves s (t.goodMessage p) := by
  unfold State.goodMessage
  repeat' (first | with_reducible exact h | with_reducible apply State.restartKeepalive_moves | split)

theorem execStat_moves (p : Port) {s t : State}
    (e : execStat p s = .next t) : Moves s t :=
  serve_moves (fun _ _ a h => ownStat_moves h p a) e

theorem execRdbin_moves (p : Port) (bin : Nat) {s t : State}
    (e : execRdbin p bin s = .next t) : Moves s t :=
  serve_moves (fun _ _ a h => ownRdbin_moves h a) e

theorem execRdcell_moves (p : Port) (cell : Nat) {s t : State}
    (e : execRdcell p cell s = .next t) : Moves s t :=
  serve_moves (fun _ _ a h => ownRdcell_moves h a) e

theorem execRdord_moves (p : Port) (slot gen : Nat) {s t : State}
    (e : execRdord p slot gen s = .next t) : Moves s t :=
  serve_moves (fun _ _ a h => ownRdord_moves h a) e

theorem execRdcrn_moves (p : Port) (crane : Nat) {s t : State}
    (e : execRdcrn p crane s = .next t) : Moves s t :=
  serve_moves (fun _ _ a h => ownRdcrn_moves h a) e

theorem execRdseg_moves (p : Port) (segment : Nat) {s t : State}
    (e : execRdseg p segment s = .next t) : Moves s t :=
  serve_moves (fun _ _ a h => ownRdseg_moves h a) e

theorem execRdzone_moves (p : Port) (read : ZoneRead) {s t : State}
    (e : execRdzone p read s = .next t) : Moves s t :=
  serve_moves (fun _ _ a h => ownRdzone_moves h a) e

theorem execRsv_moves (p : Port) (lo hi : Nat) {s t : State}
    (e : execRsv p lo hi s = .next t) : Moves s t :=
  serve_moves (fun _ _ a h => ownRsv_moves h p a) e

theorem execRel_moves (p : Port) (lo hi : Nat) {s t : State}
    (e : execRel p lo hi s = .next t) : Moves s t :=
  serve_moves (fun _ _ a h => ownRel_moves h p a) e

theorem execFrel_moves (p : Port) (crane lo hi : Nat) {s t : State}
    (e : execFrel p crane lo hi s = .next t) : Moves s t :=
  serve_moves (fun _ _ a h => ownFrel_moves h a) e

theorem execKeep_moves (p : Port) (code : Nat) {s t : State}
    (e : execKeep p code s = .next t) : Moves s t :=
  serve_moves (fun _ _ a h => ownKeep_moves h p a) e

theorem execKeepaliveExpiry_moves (c : Crane) {s t : State}
    (e : execKeepaliveExpiry c s = .next t) : Moves s t := by
  refine whenRunning_moves ?_ e
  split
  · exact finish_moves _ (State.latchTrip_moves (State.setKeepalive_moves .refl _ _ _) _ _)
  · exact .refl

theorem execStop_moves (p : Port) (crane : Nat) {s t : State}
    (e : execStop p crane s = .next t) : Moves s t :=
  serve_moves (fun _ _ a h => ownStop_moves h a) e

theorem execCreep_moves (p : Port) (crane : Nat) {s t : State}
    (e : execCreep p crane s = .next t) : Moves s t :=
  serve_moves (fun _ _ a h => ownCreep_moves h true a) e

theorem execCrend_moves (p : Port) (crane : Nat) {s t : State}
    (e : execCrend p crane s = .next t) : Moves s t :=
  serve_moves (fun _ _ a h => ownCreep_moves h false a) e

theorem execClrt_moves (p : Port) {s t : State}
    (e : execClrt p s = .next t) : Moves s t :=
  serve_moves (fun _ _ a h => ownClrt_moves h p a) e

theorem execAssign_moves (p : Port) (bin : Nat) (cell : Option Nat) {s t : State}
    (e : execAssign p bin cell s = .next t) : Moves s t :=
  serve_moves (fun _ _ a h => ownAssign_moves h a) e

theorem execClrsus_moves (p : Port) (cell : Nat) {s t : State}
    (e : execClrsus p cell s = .next t) : Moves s t :=
  serve_moves (fun _ _ a h => ownToUnverified_moves h .suspect a) e

theorem execUnblk_moves (p : Port) (cell : Nat) {s t : State}
    (e : execUnblk p cell s = .next t) : Moves s t :=
  serve_moves (fun _ _ a h => ownToUnverified_moves h .blocked a) e

theorem execBlock_moves (p : Port) (cell : Nat) {s t : State}
    (e : execBlock p cell s = .next t) : Moves s t :=
  serve_moves (fun _ _ a h => ownBlock_moves h a) e

theorem execQuar_moves (p : Port) (bin : Nat) {s t : State}
    (e : execQuar p bin s = .next t) : Moves s t :=
  serve_moves (fun _ _ a h => ownQuar_moves h true a) e

theorem execUnquar_moves (p : Port) (bin : Nat) {s t : State}
    (e : execUnquar p bin s = .next t) : Moves s t :=
  serve_moves (fun _ _ a h => ownQuar_moves h false a) e

theorem execSetcmp_moves (p : Port) (bin : Nat) (states : List Nat) {s t : State}
    (e : execSetcmp p bin states s = .next t) : Moves s t :=
  serve_moves (fun _ _ a h => ownSetcmp_moves h a) e

theorem execMove_moves (p : Port) (bin cell authority : Nat) {s t : State}
    (e : execMove p bin cell authority s = .next t) : Moves s t :=
  serve_moves (fun _ _ a h => ownMove_moves h a) e

theorem execCancelOnPortS_moves (slot gen : Nat) {s t : State}
    (e : execCancelOnPortS slot gen s = .next t) : Moves s t :=
  serve_moves (fun _ _ a h => ownServiceCancel_moves h a) e

theorem execWhold_moves (p : Port) (zones : List Nat) {s t : State}
    (e : execWhold p zones s = .next t) : Moves s t :=
  serve_moves (fun _ _ a h => ownWhold_moves h a) e

theorem execWres_moves (p : Port) {s t : State}
    (e : execWres p s = .next t) : Moves s t :=
  serve_moves (fun _ _ a h => ownWres_moves h a) e

theorem execFetch_moves (p : Port) (bin station : Nat) (picks : List Nat) (loan : BitVec 32)
    (authority : Nat) {s t : State}
    (e : execFetch p bin station picks loan authority s = .next t) : Moves s t :=
  serve_moves (fun _ _ a h => ownFetch_moves h a) e

theorem execPick_moves (p : Port) (bin compartment : Nat) {s t : State}
    (e : execPick p bin compartment s = .next t) : Moves s t :=
  serve_moves (fun _ _ a h => ownPick_moves h a) e

theorem execUnpick_moves (p : Port) (bin compartment : Nat) {s t : State}
    (e : execUnpick p bin compartment s = .next t) : Moves s t :=
  serve_moves (fun _ _ a h => ownUnpick_moves h a) e

theorem execPlace_moves (p : Port) (bin compartment : Nat) {s t : State}
    (e : execPlace p bin compartment s = .next t) : Moves s t :=
  serve_moves (fun _ _ a h => ownPlace_moves h a) e

theorem execUnclaim_moves (p : Port) (bin compartment : Nat) {s t : State}
    (e : execUnclaim p bin compartment s = .next t) : Moves s t :=
  serve_moves (fun _ _ a h => ownUnclaim_moves h a) e

theorem execSlot_moves (p : Port) (station : Nat) {s t : State}
    (e : execSlot p station s = .next t) : Moves s t :=
  serve_moves (fun _ _ a h => ownSlot_moves h a) e

theorem execRelbay_moves (p : Port) (station bay : Nat) {s t : State}
    (e : execRelbay p station bay s = .next t) : Moves s t :=
  serve_moves (fun _ _ a h => ownRelbay_moves h a) e

theorem execCancel_moves (p : Port) (slot gen : Nat) {s t : State}
    (e : execCancel p slot gen s = .next t) : Moves s t := by
  unfold execCancel at e
  split at e
  · exact serve_moves (fun _ _ a h => ownServiceCancel_moves h a) e
  · exact serve_moves (fun _ _ a h => ownCancel_moves h a) e

theorem execVerificationIntervalExpiry_moves  {s t : State}
    (e : execVerificationIntervalExpiry s = .next t) : Moves s t := by
  refine whenRunning_moves ?_ e
  exact State.pump_moves (evalCranes_moves _ (State.intervalCrane_moves (State.intervalCrane_moves (State.restartInterval_moves
    .refl) _) _) _ _ _)

theorem execTag_moves (p : Port) (slot gen : Nat) (result : TagResult) {s t : State}
    (e : execTag p slot gen result s = .next t) : Moves s t :=
  serve_moves (fun _ _ a h => ownTag_moves h p a) e

theorem execNextWork_moves (p : Port) (level : Nat) {s t : State}
    (e : execNextWork p level s = .next t) : Moves s t :=
  serve_moves (fun _ _ a h => ownNext_moves h p a) e

theorem execLoad_moves (p : Port) (slot gen : Nat) {s t : State}
    (e : execLoad p slot gen s = .next t) : Moves s t :=
  serve_moves (fun _ _ a h => ownLoad_moves h p a) e

theorem execDone_moves (p : Port) (slot gen : Nat) (cell : Option Nat) {s t : State}
    (e : execDone p slot gen cell s = .next t) : Moves s t :=
  serve_moves (fun _ _ a h => ownDone_moves h p a) e

theorem execUnable_moves (p : Port) (slot gen reason : Nat) (cell : Option Nat) {s t : State}
    (e : execUnable p slot gen reason cell s = .next t) : Moves s t :=
  serve_moves (fun _ _ a h => ownUnable_moves h p a) e

theorem execProgressTimerExpiry_moves (slot : Fin 64) {s t : State}
    (e : execProgressTimerExpiry slot s = .next t) : Moves s t := by
  refine whenRunning_moves ?_ e
  split
  · exact .refl
  · split
    · exact finish_moves _ (State.stall_moves .refl _ _)
    · exact .refl

theorem execLoopSample_moves (z : Fin 4) (value : Nat) (manual : Bool) {s t : State}
    (e : execLoopSample z value manual s = .next t) : Moves s t := by
  refine whenRunning_moves ?_ e
  exact finish_moves _ (State.sampleLoop_moves .refl _ _ _)

theorem execClearanceTimerExpiry_moves (z : Fin 4) {s t : State}
    (e : execClearanceTimerExpiry z s = .next t) : Moves s t := by
  refine whenRunning_moves ?_ e
  split
  · next c =>
    exact finish_moves _ (State.endClearance_moves (State.cutCrane_moves (State.cutCrane_moves .refl _ _) _ _) _
      (by rw [cutCrane_zone, cutCrane_zone]; exact c.1))
  · exact .refl

theorem execFireResetInput_moves  {s t : State}
    (e : execFireResetInput s = .next t) : Moves s t := by
  refine whenRunning_moves ?_ e
  exact finish_moves _ (Moves.foldl (fun _ _ z h => State.offerReset_moves h z) _ .refl)

theorem execFrst_moves (p : Port) (zone : Nat) {s t : State}
    (e : execFrst p zone s = .next t) : Moves s t :=
  serve_moves (fun _ _ a h => ownFrst_moves h a) e

theorem execTravelTimerExpiry_moves (k : Fin 3) {s t : State}
    (e : execTravelTimerExpiry k s = .next t) : Moves s t := by
  refine whenRunning_moves ?_ e
  split
  · exact finish_moves _ (State.moveShutter_moves .refl _ _ _)
  · exact .refl

theorem execLimitEdge_moves (k : Fin 3) (i : LimitSwitch) (level : Bool) {s t : State}
    (e : execLimitEdge k i level s = .next t) : Moves s t := by
  refine whenRunning_moves ?_ e
  split
  · exact .refl
  · exact finish_moves _ (State.limitEdge_moves .refl _ _ _)

theorem execSopen_moves (p : Port) (shutter : Nat) {s t : State}
    (e : execSopen p shutter s = .next t) : Moves s t :=
  serve_moves (fun _ _ a h => ownSopen_moves h a) e

theorem execGeneratorTick_moves  {s t : State}
    (e : execGeneratorTick s = .next t) : Moves s t := by
  exact whenRunning_moves (Moves.foldl (fun _ _ k h => State.tickGen_moves h k) _ .refl) e

theorem execInputExcursion_moves (c : Crane) (i : EncInput) (level : Bool) {s t : State}
    (e : execInputExcursion c i level s = .next t) : Moves s t := by
  exact whenRunning_moves (State.setFilters_moves .refl _ _) e

theorem execFilterWindow_moves (c : Crane) (which : FilterEnd) {s t : State}
    (e : execFilterWindow c which s = .next t) : Moves s t := by
  refine whenRunning_moves ?_ e
  exact finish_moves _ (State.filterWindow_moves .refl _ _)

theorem execPositionSample_moves (c : Crane) {s t : State}
    (e : execPositionSample c s = .next t) : Moves s t := by
  refine whenRunning_moves ?_ e
  exact finish_moves _ (State.positionSample_moves .refl _)

theorem execSetParam_moves (p : Port) (parameter value : Nat) {s t : State}
    (e : execSetParam p parameter value s = .next t) : Moves s t :=
  serve_moves (fun _ _ a h => ownSet_moves h a) e

theorem execRstrt_moves (p : Port) {s t : State}
    (e : execRstrt p s = .next t) : Moves s t :=
  serve_moves (fun _ _ a h => ownRstrt_moves h a) e

theorem execTransmitComplete_moves (m : MessageEnd) {s t : State}
    (e : execTransmitComplete m s = .next t) : Moves s t := by
  refine whenRunning_moves ?_ e
  split
  · exact .refl
  · exact State.sent_moves .refl _ _ _

theorem execPowerOn_moves  {s t : State}
    (e : execPowerOn s = .next t) : Moves s t := by
  cases e
  split
  · exact State.setPower_moves .refl _
  · exact .refl

theorem execLossOfMainSupply_moves  {s t : State}
    (e : execLossOfMainSupply s = .next t) : Moves s t := by
  cases e
  exact State.setPower_moves .refl _

theorem execResetAsserted_moves  {s t : State}
    (e : execResetAsserted s = .next t) : Moves s t := by
  cases e
  split
  · exact State.setPower_moves .refl _
  · exact .refl

theorem execResetReleased_moves (retentionValid : Bool) (l : StartLevels) {s t : State}
    (e : execResetReleased retentionValid l s = .next t) : Moves s t := by
  cases e
  split
  · exact Moves.snoc .refl (.warm s l)
  · split
    · exact Moves.snoc .refl (.warm s l)
    · exact Moves.snoc .refl (.cold s l)
  · exact .refl
  · exact .refl

theorem execAssemblerRefusal_moves (p : Port) {s t : State}
    (e : execAssemblerRefusal p s = .next t) : Moves s t := by
  refine whenRunning_moves ?_ e
  split
  · split
    · exact State.nakItem_moves .refl _ _ _
    · exact .refl
    · exact .refl
  · exact .refl

theorem execUnknownKind_moves (p : Port) {s t : State}
    (e : execUnknownKind p s = .next t) : Moves s t := by
  refine whenRunning_moves ?_ e
  split
  · split
    · split
      · exact State.nakItem_moves .refl _ _ _
      · exact .refl
    · exact .refl
    · exact .refl
  · exact .refl

theorem execMessageComplete_moves (p : Port) {s t : State}
    (e : execMessageComplete p s = .next t) : Moves s t := by
  refine whenRunning_moves ?_ e
  split
  · split
    · next hf => exact State.goodMessage_moves (State.setPort_moves .refl _ _ (.complete _ _ _ _ hf)) _
    · exact .refl
  · exact .refl

theorem execOverlengthMessage_moves (p : Port) {s t : State}
    (e : execOverlengthMessage p s = .next t) : Moves s t := by
  refine whenRunning_moves ?_ e
  split
  · split
    · next hf => exact State.setPort_moves .refl _ _ (.overlength _ _ _ _ hf)
    · exact .refl
  · exact .refl

theorem execLineBreak_moves (p : Port) {s t : State}
    (e : execLineBreak p s = .next t) : Moves s t := by
  refine whenRunning_moves ?_ e
  split
  · exact .refl
  · exact finish_moves _ (State.takeBreak_moves .refl _)

theorem execBreakEnd_moves (p : Port) {s t : State}
    (e : execBreakEnd p s = .next t) : Moves s t := by
  exact whenRunning_moves (State.setPort_moves .refl _ _ (.breakEnd _)) e

theorem execCharacterReceived_moves (p : Port) (f : RxFrame) {s t : State}
    (e : execCharacterReceived p f s = .next t) : Moves s t := by
  refine whenRunning_moves ?_ e
  split
  · exact .refl
  · exact finish_moves _ (State.receive_moves .refl _ _)

/-- Every command that answers a next state does so by a sequence of moves. -/
theorem exec_moves {c : Instr} {s t : State} (e : exec c s = .next t) : Moves s t := by
  cases c
  case stat => exact execStat_moves _ e
  case rdbin => exact execRdbin_moves _ _ e
  case rdcell => exact execRdcell_moves _ _ e
  case rdord => exact execRdord_moves _ _ _ e
  case rdcrn => exact execRdcrn_moves _ _ e
  case rdseg => exact execRdseg_moves _ _ e
  case rdzone => exact execRdzone_moves _ _ e
  case fetch => exact execFetch_moves _ _ _ _ _ _ e
  case pick => exact execPick_moves _ _ _ e
  case unpick => exact execUnpick_moves _ _ _ e
  case slot => exact execSlot_moves _ _ e
  case place => exact execPlace_moves _ _ _ e
  case unclaim => exact execUnclaim_moves _ _ _ e
  case relbay => exact execRelbay_moves _ _ _ e
  case cancel => exact execCancel_moves _ _ _ e
  case cancelOnPortS => exact execCancelOnPortS_moves _ _ e
  case nextWork => exact execNextWork_moves _ _ e
  case load => exact execLoad_moves _ _ _ e
  case done => exact execDone_moves _ _ _ _ e
  case unable => exact execUnable_moves _ _ _ _ _ e
  case tag => exact execTag_moves _ _ _ _ e
  case rsv => exact execRsv_moves _ _ _ e
  case rel => exact execRel_moves _ _ _ e
  case clrt => exact execClrt_moves _ e
  case keep => exact execKeep_moves _ _ e
  case assign => exact execAssign_moves _ _ _ e
  case clrsus => exact execClrsus_moves _ _ e
  case block => exact execBlock_moves _ _ e
  case unblk => exact execUnblk_moves _ _ e
  case quar => exact execQuar_moves _ _ e
  case unquar => exact execUnquar_moves _ _ e
  case setcmp => exact execSetcmp_moves _ _ _ e
  case move => exact execMove_moves _ _ _ _ e
  case frel => exact execFrel_moves _ _ _ _ e
  case stop => exact execStop_moves _ _ e
  case creep => exact execCreep_moves _ _ e
  case crend => exact execCrend_moves _ _ e
  case whold => exact execWhold_moves _ _ e
  case wres => exact execWres_moves _ e
  case frst => exact execFrst_moves _ _ e
  case sopen => exact execSopen_moves _ _ e
  case setParam => exact execSetParam_moves _ _ _ e
  case rstrt => exact execRstrt_moves _ e
  case assemblerRefusal => exact execAssemblerRefusal_moves _ e
  case unknownKind => exact execUnknownKind_moves _ e
  case messageComplete => exact execMessageComplete_moves _ e
  case overlengthMessage => exact execOverlengthMessage_moves _ e
  case lineBreak => exact execLineBreak_moves _ e
  case transmitComplete => exact execTransmitComplete_moves _ e
  case positionSample => exact execPositionSample_moves _ e
  case inputExcursion => exact execInputExcursion_moves _ _ _ e
  case filterWindow => exact execFilterWindow_moves _ _ e
  case keepaliveExpiry => exact execKeepaliveExpiry_moves _ e
  case progressTimerExpiry => exact execProgressTimerExpiry_moves _ e
  case verificationIntervalExpiry => exact execVerificationIntervalExpiry_moves e
  case loopSample => exact execLoopSample_moves _ _ _ e
  case clearanceTimerExpiry => exact execClearanceTimerExpiry_moves _ e
  case travelTimerExpiry => exact execTravelTimerExpiry_moves _ e
  case limitEdge => exact execLimitEdge_moves _ _ _ e
  case fireResetInput => exact execFireResetInput_moves e
  case generatorTick => exact execGeneratorTick_moves e
  case powerOn => exact execPowerOn_moves e
  case lossOfMainSupply => exact execLossOfMainSupply_moves e
  case resetAsserted => exact execResetAsserted_moves e
  case resetReleased => exact execResetReleased_moves _ _ e
  case characterReceived => exact execCharacterReceived_moves _ _ e
  case breakEnd => exact execBreakEnd_moves _ e

/-- A step takes a command off the queue, or lets time pass, and is otherwise a sequence of moves. -/
theorem step_moves {s t : State} (e : step s = .next t) :
    (s.pending = [] ∧ (t = s ∨ t = s.elapse)) ∨ ∃ c rest, s.pending = c :: rest ∧ Moves { s with pending := rest } t := by
  unfold step at e
  split at e
  · next h =>
    refine .inl ⟨h, ?_⟩
    cases e
    unfold State.tick
    split
    · exact .inr rfl
    · exact .inl rfl
  · next c rest h => exact .inr ⟨c, rest, h, exec_moves e⟩

/-- A property of the state that no command queue changes, and that every move keeps, every step keeps. -/
theorem step_keeps {P : State → Prop} (hq : ∀ (s : State) (l : List Instr), P s → P { s with pending := l })
    (hm : ∀ s t, Move s t → P s → P t) {s t : State} (hs : P s) (e : step s = .next t) : P t := by
  rcases step_moves e with ⟨-, h⟩ | ⟨c, rest, -, h⟩
  · rcases h with rfl | rfl
    · exact hs
    · exact hm _ _ (.elapse s) hs
  · exact h.keeps hm (hq s rest hs)

end Sys2Proof.Machine
end

