-- ==== Sys2Proof/Tests/Slice0.lean ====
section
/-! SUPPORT. Tests: ill-formed commands, the worked examples of the manual, and for each claim a state and operands that meet
its hypotheses. -/

namespace Sys2Proof.Tests

/- One theorem at a time: the kernel evaluations of many at once need more threads than memory allows. -/
set_option Elab.async false

open Sys2Proof.Machine

/-! ## Ill-formed commands: one for each check of `Instr.wellFormed` -/

theorem test_wellFormed_refuses :
    (∀ c ∈ ([.rdbin .C 65536, .rdcell .S 65536, .rdord .A 256 0, .rdord .A 0 256, .rdcrn .C 256, .rdseg .C 256, .rdzone .C ⟨256, true⟩,
      .fetch .C 65536 0 [] 0 0, .fetch .C 0 256 [] 0 0, .fetch .C 0 0 [256] 0 0, .fetch .C 0 0 [] 0 256, .pick .C 65536 0,
      .pick .C 0 256, .unpick .C 65536 0, .unpick .C 0 256, .slot .C 256, .place .C 65536 0, .place .C 0 256,
      .unclaim .C 65536 0, .unclaim .C 0 256, .relbay .C 256 0, .relbay .C 0 256, .cancel .C 256 0, .cancel .C 0 256,
      .cancelOnPortS 256 0, .cancelOnPortS 0 256, .nextWork .A 256, .load .A 256 0, .load .A 0 256] : List Instr),
      c.wellFormed = false) := by decide +kernel

theorem test_wellFormed_refuses_more :
    (∀ c ∈ ([.done .A 256 0 none, .done .A 0 256 none, .done .A 0 0 (some 65536), .unable .A 256 0 0 none,
      .unable .A 0 256 0 none, .unable .A 0 0 256 none, .unable .A 0 0 0 (some 65536), .tag .A 256 0 .noBin, .tag .A 0 256 .noBin,
      .tag .A 0 0 (.tag 65536), .rsv .A 256 0, .rsv .A 0 256, .rel .A 256 0, .rel .A 0 256, .keep .A 256, .assign .S 65536 none,
      .assign .S 0 (some 65536), .clrsus .S 65536, .block .S 65536, .unblk .S 65536, .quar .S 65536, .unquar .S 65536,
      .setcmp .S 65536 [], .setcmp .S 0 [256], .setcmp .S 0 (List.replicate 256 0), .move .S 65536 0 0, .move .S 0 65536 0,
      .move .S 0 0 256, .frel .S 256 0 0, .frel .S 0 256 0, .frel .S 0 0 256, .stop .S 256, .creep .S 256, .crend .S 256,
      .whold .S [256], .frst .S 256, .sopen .S 256, .setParam .S 256 0, .setParam .S 0 16777216, .loopSample 0 256 false] :
        List Instr), c.wellFormed = false) := by decide +kernel

/-! ## Worked examples and tables of the manual -/

/-- R189: the check of "123456789" is 29B1 hexadecimal. -/
theorem test_crc_of_digits : crc16 [0x31, 0x32, 0x33, 0x34, 0x35, 0x36, 0x37, 0x38, 0x39] = 0x29B1 := by decide +kernel

/-- 1.3: cell 1,234 is column 51, level 5, side 0, in segment 13 and zone 1. -/
theorem test_cell_1234 :
    cellColumn 1234 = 51 ∧ cellLevel 1234 = 5 ∧ cellSide 1234 = 0 ∧ cellSegment 1234 = 13 ∧ zoneOfCell 1234 = 1 ∧
      cellAt 51 5 0 = 1234 := by decide

/-- R5's table at the ends of its zones. -/
theorem test_zone_ends :
    [0, 959, 960, 1919, 1920, 2879, 2880, 3839].map zoneOfCell = [0, 0, 1, 1, 2, 2, 3, 3] ∧
      [0, 10, 11, 20, 21, 30, 31, 41].map zoneOfSegment = [0, 0, 1, 1, 2, 2, 3, 3] := by decide

/-- R191 and R190 by hand: RSV is kind 25, FETCH 10; FETCH of bin 2,050 to E with compartments 3 and 14, loan reference 7,
authority 3. -/
theorem test_bodies :
    kindOfCode 0x25 = some .rsv ∧ kindOfCode 0x10 = some .fetch ∧ kindOfCode 0x60 = none ∧
      commandOf .A .rsv false [8, 20] = .ok (.rsv .A 8 20) ∧ commandOf .A .rsv false [8] = .error .length ∧
      commandOf .C .fetch false [0x08, 0x02, 1, 2, 3, 14, 0, 0, 0, 7, 3] = .ok (.fetch .C 2050 1 [3, 14] 7 3) ∧
      commandOf .A .done false [4, 2, 1, 0x0E, 0xFF] = .ok (.done .A 4 2 (some 3839)) ∧ commandOf .A .done false [4, 2, 2] = .error .range ∧
      commandOf .S .set false [2, 1, 0x86, 0xA0] = .ok (.setParam .S 2 100000) := by decide +kernel

/-- A state in which crane `c` holds the segments `lo` to `hi`. -/
def holdRun (s : State) (c : Crane) (lo hi : Nat) : State :=
  { s with segs := s.segs ++ (upTo lo hi).map (fun n => (n, ⟨some c, .open⟩)) }

/-- 6.2: crane A holds 3 to 7 and crane B 22 to 30. -/
def middle : State := holdRun (holdRun .reset .A 3 7) .B 22 30

/-- 6.2: RSV(8, 20) of crane A is granted, the holding 3 to 20; RSV(18, 21) of crane B is then refused with CONFLICT, 18. -/
theorem test_rsv_first_A :
    (middle.rsv .A 8 20).2 = .ack [.num 1 3, .num 1 20] ∧
      ((middle.rsv .A 8 20).1.rsv .B 18 21).2 = .nak .conflict (some 18) := by decide +kernel

/-- 6.2: taken first, crane B's RSV is granted; crane A is refused with CONFLICT, 18, and granted RSV(8, 17). With an empty
holding, crane A's RSV(35, 36) is refused with CONFLICT, 22. -/
theorem test_rsv_first_B :
    (middle.rsv .B 18 21).2 = .ack [.num 1 18, .num 1 30] ∧
      ((middle.rsv .B 18 21).1.rsv .A 8 20).2 = .nak .conflict (some 18) ∧
      ((middle.rsv .B 18 21).1.rsv .A 8 17).2 = .ack [.num 1 3, .num 1 17] ∧
      ((holdRun .reset .B 22 30).rsv .A 35 36).2 = .nak .conflict (some 22) := by decide +kernel

/-- Crane A as in the worked case of 5.3, with the oldest history entry given. -/
def movingEast (oldest : Counter) : State :=
  let s := holdRun .reset .A 3 7
  { s with craneA := { s.craneA with ref := some ⟨1000, none, 1200⟩, counter := 41000, history := List.replicate 8 oldest,
                                     tripLatched := false, tripFirst := none, tripCauses := [] } }

/-- What a test looks at in a crane's record after a sample. -/
def sampled (s : State) : Int × Nat × Nat × List Nat × List TripCause :=
  (((s.crane .A).ref.map (·.x)).getD 0, (s.crane .A).speed, (s.crane .A).margin,
    [(s.crane .A).envLo, (s.crane .A).envHi, (s.crane .A).touchFirst, (s.crane .A).touchLast], (s.crane .A).tripCauses)

/-- The state of an answer. -/
def next (r : Result) : State := match r with | .next s => s | _ => .reset

/-- 5.3: ΔN8 = 192. -/
theorem test_sample_moving_east :
    sampled (next (exec (.positionSample .A) (movingEast 40808))) = (11200, 3000, 5955, [9950, 18255, 4, 7], []) := by
  decide +kernel

/-- 5.3: ΔN8 = 600, the limits. -/
theorem test_sample_limits :
    sampled (next (exec (.positionSample .A) (movingEast 40400))) =
      (11200, 8000, 20000, [9950, 32300, 4, 13], [.envelope, .overspeed]) := by decide +kernel

/-- 5.3: rounding to nearest, ties away from zero. -/
theorem test_rounding :
    divNearest (21845 * -3) 65536 = -1 ∧ divNearest (16384 * 2) 65536 = 1 ∧ divNearest (16384 * -2) 65536 = -1 := by
  decide +kernel

/-- The loop 2 record after its samples. -/
def sampledLoop (values : List Nat) : LoopClass × Option LoopClass × Nat :=
  let l := (values.foldl (fun s v => next (exec (.loopSample 2 v false) s)) State.reset).loop 2
  (l.filtered, l.candidate, l.count)

/-- 9.1: the samples 150, 150, 90, 150, 150, 150 of loop 2. -/
theorem test_debounce :
    [[150], [150, 150], [150, 150, 90], [150, 150, 90, 150], [150, 150, 90, 150, 150]].map sampledLoop =
      [(.normal, some .alarm, 1), (.normal, some .alarm, 2), (.normal, none, 0), (.normal, some .alarm, 1),
        (.normal, some .alarm, 2)] ∧ sampledLoop [150, 150, 90, 150, 150, 150] = (.alarm, none, 0) := by decide +kernel

/-- 4.3: the first two choices of the worked selection, over the eligible orders as listed there. -/
theorem test_selection :
    let o (k : OrderKind) (seq : BitVec 32) (level bypass : Nat) : Order :=
      { kind := k, purpose := .loan, bin := none, source := .cell 0, dest := none, destBay := none, crane := .A, issuer := .C
        authority := 3, seq := seq, bypass := bypass, loan := none, level := level, state := .queued, stalled := false
        timer := none }
    choose [(4, o .fetch 100 2 2), (9, o .stow 103 7 0), (11, o .fetch 105 7 0)] 7 = some (9, [4]) ∧
      choose [(4, o .fetch 100 2 3), (11, o .fetch 105 7 0)] 7 = some (4, []) := by decide +kernel

/-- R14 by hand: with cells 96 and 200 EMPTY, crane A in segment 2 takes 96 (down from 191), in segment 1 takes 200 where 96 is
not EMPTY; crane B in segment 41 takes 200, and in segment 2 takes 96 (up from 96). -/
theorem test_home_scan :
    let s (cells : List Nat) (x : Int) : State :=
      { State.reset with
        cells := cells.map (fun n => (n, ⟨.empty, none, 0⟩))
        craneA := { State.reset.craneA with ref := some ⟨0, none, x⟩ } }
    (s [96, 200] 4800).homeScan .A = some 96 ∧ (s [200] 4799).homeScan .A = some 200 ∧
      (s [96, 200] 0).homeScan .B = some 200 ∧
      ({ s [96, 200] 0 with craneB := { State.reset.craneB with ref := some ⟨0, none, 4800⟩ } }).homeScan .B = some 96 := by
  decide +kernel

/-- R188, R189: the line of a KEEP response's head, 60 hexadecimal with its marker, and the rest at 1. -/
theorem test_line_of_head :
    let s := State.reset.setPort .A { State.reset.portA with sending := some (.ack .keep []) }
    (List.range 11).map (s.lineLevel .A) =
        [false, false, false, false, false, false, true, true, false, true, true] ∧
      s.lineLevel .A 55 = true ∧ s.lineLevel .A 11 = false ∧ s.lineLevel .B 0 = true ∧
      (s.setPower .inReset).lineLevel .A 0 = true := by decide +kernel

/-- R186 item 8, R205: RDZONE carries the level of the input, and an RSTRT start the straps as they then stand. -/
theorem test_levels_are_read :
    ((next (exec (.rdzone .C ⟨3, true⟩) .reset)).manualRelease = true) ∧
      (let s := State.reset.setPort .S { State.reset.portS with stopped := true, sending := some (.ack .rstrt []) }
       (next (exec (.transmitComplete ⟨.S, { resetLevels with strapsB := ⟨true, true⟩ }⟩) s)).portB.rate = .r230400) := by
  decide +kernel

/-- A character of a byte, received clean. -/
def hear (p : Port) (marker : Bool) (s : State) (b : Byte) : State :=
  next (exec (.characterReceived p (cleanFrame b marker true)) s)

/-- R189, R195 to R197: KEEP(2) as a message on port A, with the check of R189, is served as it is spelled. -/
theorem test_message_served :
    let s := ([1, 2] : List Byte).foldl (hear .A false) (hear .A true State.reset 0x28)
    let c := crc16 [0x28, 1, 2]
    let t := next (exec (.messageComplete .A) (hear .A false (hear .A false s (c.extractLsb' 8 8)) (c.extractLsb' 0 8)))
    (t.port .A).item = some (.message 0x28 [2]) ∧ ((next (exec (.keep .A 0) t)).crane .A).window = .ms500 ∧
      ((next (exec (.keep .A 0) t)).port .A).sending = some (.ack .keep [.named 2, .named 1]) := by decide +kernel

/-- R193, R107: a break on port A trips crane A for BREAK after START. -/
theorem test_break_trips :
    ((next (exec (.lineBreak .A) .reset)).crane .A).tripCauses = [.break, .start] ∧
      ((next (exec (.lineBreak .A) .reset)).port .A).afterBreak = true := by decide +kernel

/-- R203: a value below its range is clamped to 10; 150 for short_th is refused while alarm_th is 140. -/
theorem test_set_clamps :
    ((next (exec (.setParam .S 35 5) .reset)).settings.interval) = 10 ∧
      ((next (exec (.setParam .S 35 5) .reset)).port .S).sending = some (.ack .set [.num 1 35, .num 2 10, .indication true]) ∧
      ((next (exec (.setParam .S 36 150) .reset)).port .S).sending = some (.nak 0x40 .range none) := by decide +kernel

/-! ## Witnesses: for each claim of `Obligations.lean`, a state and operands that meet the hypotheses of each of its clauses -/

/-- A port that can take a request, by evaluation. -/
theorem serves_of {s : State} {p : Port}
    (h : (s.running && ((s.port p).slot.isNone && (!(s.port p).stopped && (s.port p).item.isNone))) = true) : s.serves p := by
  simp only [Bool.and_eq_true, Option.isNone_iff_eq_none, Bool.not_eq_true'] at h
  exact ⟨h.1, h.2.1, h.2.2.1, h.2.2.2⟩

/-- Crane A holds segment 0 and crane B segment 41, and a command waits. -/
def ends : State := { holdRun (holdRun .reset .A 0 0) .B 41 41 with pending := [.keep .A 1] }

theorem ends_seg (n : Nat) :
    ends.seg n = if 0 = n then ⟨some .A, .open⟩ else if 41 = n then ⟨some .B, .open⟩ else ⟨none, .open⟩ := by rfl

/-- An order with nothing in hand: the fields that a witness needs are set over it. -/
def plain (k : OrderKind) (st : OrderState) (source : Place) (dest : Option Place) : Order where
  kind := k
  purpose := .loan
  bin := some 4095
  source := source
  dest := dest
  destBay := none
  crane := .A
  issuer := .C
  authority := 3
  seq := 4294967295
  bypass := 0
  loan := some 7
  level := 11
  state := st
  stalled := false
  timer := none

/-- The order in slot 63 with generation 255. -/
def withOrder (o : Order) : State := State.reset.setSlot 63 ⟨255, some o⟩

/-- The order in slot 63 with generation 255, active for crane A. -/
def withActive (o : Order) : State :=
  { withOrder o with craneA := { State.reset.craneA with active := some ⟨63, 255⟩ } }

theorem wit_StepTakesTheFrontCommand :
    ends.pending = .keep .A 1 :: [] ∧ (State.reset.pending = [] ∧ State.reset.running = true) ∧
      ((State.reset.setPower .inReset).pending = [] ∧ (State.reset.setPower .inReset).running = false) := by decide +kernel

theorem ends_trip (c : Crane) : TripSound (ends.crane c) := by
  cases c
  · exact ⟨nofun, fun _ => ⟨.start, rfl, by decide +kernel⟩, by decide +kernel⟩
  · exact ⟨nofun, fun _ => ⟨.start, rfl, by decide +kernel⟩, by decide +kernel⟩

theorem ends_rail : RailSound ends := by
  constructor
  · intro n h
    rw [ends_seg] at *
    split_ifs at h ⊢
  · intro n h
    rw [ends_seg] at h
    split_ifs at h <;> first | omega | simp at h
  · intro c a m b ha hb h1 h2
    simp only [State.holds, ends_seg, beq_iff_eq] at *
    cases c <;> split_ifs at ha hb <;> first | (simp at ha; done) | (simp at hb; done) | skip
    · obtain rfl : m = 0 := by omega
      rfl
    · obtain rfl : m = 41 := by omega
      rfl
  · intro a b ha hb
    simp only [State.holds, ends_seg, beq_iff_eq] at *
    split_ifs at ha hb <;> first | omega | (simp at ha; done) | simp at hb

theorem ends_sched : SchedSound ends :=
  ⟨fun x => by cases x <;> decide +kernel, fun x => by cases x <;> decide +kernel⟩
theorem ends_fire : FireSound ends :=
  ⟨fun z => by
    rw [show ends.zone z = .cold from rfl]
    exact ⟨by decide +kernel, nofun⟩, fun k => by
    rw [show ends.shutter k = .atTop from rfl]
    exact ⟨nofun, by simp [Shutter.atTop]⟩⟩

theorem wit_StepKeepsEveryRecordSound :
    ends.tablesWf = true ∧ (∀ c, TripSound (ends.crane c)) ∧ (∀ p, PortSound (ends.port p)) ∧ SettingsSound ends ∧
      SchedSound ends ∧ FireSound ends ∧ ∃ t, step ends = .next t := by
  refine ⟨by decide +kernel, ends_trip, ?_, ?_, ends_sched, ends_fire, ⟨_, rfl⟩⟩
  · intro p; cases p <;> exact ⟨by decide, by decide, fun _ => rfl, nofun⟩
  · constructor
    · intro q lo hi h
      rcases q with ⟨c, q⟩ | _ | _ | _ | _ | _ | _ | _ | _ | _ | _ | ⟨k, q⟩ | n
      · cases c <;> cases q <;> cases h <;> decide +kernel
      all_goals first | (cases h; decide +kernel) | skip
      · have e : ends.genSettings k = .default := rfl
        cases q <;> cases h <;> simp [State.param, e, GenSettings.default, GenSettings.get]
      · cases h
    · decide +kernel

theorem wit_StepKeepsTheRailSafe : RailSound ends ∧ ∃ t, step ends = .next t := ⟨ends_rail, _, rfl⟩

theorem wit_StepKeepsPermits : RailSound ends ∧ PermitSound ends ∧ ∃ t, step ends = .next t :=
  ⟨ends_rail, by intro c; cases c <;> decide +kernel, _, rfl⟩

theorem wit_BodyRoundTrip :
    (∀ c ∈ ([.rsv .A 255 0, .cancel .S 63 255, .fetch .C 65535 255 [255] 4294967295 255, .setParam .S 2 16777215,
      .done .B 0 0 (some 65535)] : List Instr),
      (requestOf c).isSome = true ∧ c.wellFormed = true ∧ setFits c = true) := by decide +kernel

/-- Reset with a finished item on port `p`. -/
def withItem (p : Port) (code : Byte) (body : List Byte) : State :=
  State.reset.setPort p { State.reset.port p with item := some (.message code body) }

theorem wit_ItemsAreServedByTheirBodies :
    (let s := withItem .C (kindCode .rdbin) [0x0F, 0xFF]
     s.running = true ∧ (s.port .C).slot = none ∧ (s.port .C).stopped = false ∧
      (s.port .C).item = some (.message (kindCode .rdbin) [0x0F, 0xFF]) ∧
      commandOf .C .rdbin false [0x0F, 0xFF] = .ok (.rdbin .C 4095) ∧ requestOf (.rdbin .C 0) = some (.C, .rdbin)) ∧
    (let s := withItem .A (kindCode .done) [63, 255, 2]
     s.running = true ∧ (s.port .A).slot = none ∧ (s.port .A).stopped = false ∧
      (s.port .A).item = some (.message (kindCode .done) [63, 255, 2]) ∧ .A ∈ kindPorts .done ∧
      commandOf .A .done false [63, 255, 2] = .error .range ∧ requestOf (.done .A 0 0 none) = some (.A, .done)) := by decide +kernel

theorem wit_RequestsAreTakenOrRefusedAndEnd :
    (requestOf (.whold .S [3]) = some (.S, .whold) ∧ State.reset.serves .S) ∧
      (requestOf (.keep .A 5) = some (.A, .keep) ∧ State.reset.serves .A) ∧ (ends.port .S).sending = (State.reset.port .S).sending :=
  ⟨⟨rfl, serves_of (by decide +kernel)⟩, ⟨rfl, serves_of (by decide +kernel)⟩, rfl⟩

theorem wit_WhatAPortDoesNotTake :
    (requestOf (.rstrt .B) = some (.B, .rstrt) ∧ State.reset.serves .B ∧ .B ∉ kindPorts .rstrt) ∧
      (requestOf (.keep .C 4) = some (.C, .keep) ∧ State.reset.serves .C ∧ .C ∉ kindPorts .keep) ∧
      ((State.reset.setPort .S { State.reset.portS with slot := some (.ack .wres []) }).port .S).slot ≠ none ∧
      ((State.reset.setPort .S { State.reset.portS with stopped := true }).port .S).stopped = true ∧
      (((withItem .C 0x02 []).port .C).item = some (.message 0x02 []) ∧
        ∀ body, Item.message 0x02 [] ≠ .message (kindCode .stat) body) ∧
      ((State.reset.setPower .unpowered).running = false ∧ (∀ v l, Instr.positionSample .B ≠ .resetReleased v l)) := by
  refine ⟨⟨by decide +kernel, serves_of (by decide +kernel), by decide⟩, ⟨by decide +kernel, serves_of (by decide +kernel), by decide⟩,
    by decide +kernel, by decide +kernel, ⟨by decide +kernel, by simp [kindCode]⟩, by decide +kernel,
    fun v l h => by simp at h⟩

theorem wit_NoticeJoinsReplacesOrIsLost :
    let q (l : List Notice) : LinkPort := { State.reset.portS with queue := l }
    let n : Notice := .susp 3839 none
    (∃ m ∈ (q [n]).queue, n.sameAs m = true) ∧
      ((∀ m ∈ (q (List.replicate 15 (.zone 0 .sealed))).queue, n.sameAs m = false) ∧
        (q (List.replicate 15 (.zone 0 .sealed))).queue.length < 16) ∧
      ((∀ m ∈ (q (List.replicate 16 (.zone 0 .sealed))).queue, n.sameAs m = false) ∧
        16 ≤ (q (List.replicate 16 (.zone 0 .sealed))).queue.length) := by decide +kernel

/-! ### The directory -/

/-- Bin 4095 with a place, its record as after a cold start else. -/
def placed (x : BinPlace) : State := State.reset.setBin 4095 { Bin.cold with place := x }

/-- Cell 3839 in a state. -/
def celled (x : CellState) : State := State.reset.setCell 3839 ⟨x, some 65535, 0⟩

/-- Bin 4095 STORED in cell 3839. -/
def stored : State := (placed (.stored 3839)).setCell 3839 ⟨.occupied 4095, some 65535, 0⟩

theorem wit_DirectoryAndOrderReadsAnswer :
    ((placed (.onCrane .B)).serves .C ∧ ∀ st b, ((placed (.onCrane .B)).bin 4095).place ≠ .atBay st b) ∧
      ((placed (.atBay .E 1)).serves .B ∧ ((placed (.atBay .E 1)).bin 4095).place = .atBay .E 1) ∧
      (withOrder (plain .fetch .queued (.cell 0) none)).slot 63 = ⟨255, some (plain .fetch .queued (.cell 0) none)⟩ ∧
      (∃ g', State.reset.slot 0 = ⟨g', none⟩) ∧
      (0 ≠ 255 ∧ (withOrder (plain .verify .queued (.cell 0) none)).slot 63 = ⟨255, some (plain .verify .queued (.cell 0) none)⟩) := by
  exact ⟨⟨serves_of (by decide +kernel), nofun⟩, ⟨serves_of (by decide +kernel), rfl⟩, rfl, ⟨_, rfl⟩, by decide, rfl⟩

theorem wit_AssignPlacesTheBin :
    (stored.serves .S ∧ (stored.bin 4095).order = none ∧ (∀ c, (stored.bin 4095).place ≠ .onCrane c) ∧
        (stored.bin 4095).place = .stored 3839) ∧
      (((placed (.atBay .W 0)).bin 4095).order = none ∧ (∀ c, ((placed (.atBay .W 0)).bin 4095).place ≠ .onCrane c) ∧
        ((placed (.atBay .W 0)).cell 0).state = .unverified) ∧
      (State.reset.setBin 0 { Bin.cold with order := some ⟨0, 1⟩ }).serves .S ∧
      ((State.reset.setBin 0 { Bin.cold with order := some ⟨0, 1⟩ }).bin 0).order ≠ none ∧
      (∃ c, ((placed (.onCrane .A)).bin 4095).place = .onCrane c) ∧
      (∀ x ∈ ([.occupied 0, .reserved ⟨0, 0⟩, .blocked] : List CellState),
        ((celled x).bin 4095).place ≠ .stored 3839 ∧ ((celled x).cell 3839).state = x) := by
  refine ⟨⟨serves_of (by decide +kernel), rfl, nofun, rfl⟩, ⟨rfl, nofun, rfl⟩, serves_of (by decide +kernel), by decide +kernel, ⟨.A, rfl⟩, ?_⟩
  decide +kernel

theorem wit_ServiceSetsCellsAndFlags :
    ∀ x ∈ ([.empty, .unverified, .suspect, .blocked, .occupied 4095, .reserved ⟨63, 255⟩] : List CellState),
      (celled x).serves .S ∧ ((celled x).cell 3839).state = x := by
  simp only [List.forall_mem_cons]
  exact ⟨⟨serves_of (by decide +kernel), rfl⟩, ⟨serves_of (by decide +kernel), rfl⟩, ⟨serves_of (by decide +kernel), rfl⟩, ⟨serves_of (by decide +kernel), rfl⟩,
    ⟨serves_of (by decide +kernel), rfl⟩, ⟨serves_of (by decide +kernel), rfl⟩, nofun⟩

/-- Crane A carries bin 4095 with a LOADED STOW to cell 3839, and its DONE waits. -/
def carrying : State :=
  { ((withActive (plain .stow .loaded (.bay .W 1) (some (.cell 3839)))).setCell 3839 ⟨.reserved ⟨63, 255⟩, none, 0⟩).setBin 4095
      { Bin.cold with place := .onCrane .A, order := some ⟨63, 255⟩ } with
    craneA := { State.reset.craneA with active := some ⟨63, 255⟩, carried := some 4095 }
    pending := [.done .A 63 255 (some 3839)] }

theorem carrying_bin (b : Nat) :
    carrying.bin b = if 4095 = b then { Bin.cold with place := .onCrane .A, order := some ⟨63, 255⟩ } else .cold := rfl

theorem carrying_cell (n : Nat) : carrying.cell n = if 3839 = n then ⟨.reserved ⟨63, 255⟩, none, 0⟩ else .cold := rfl

theorem carrying_order (h : Handle) (o : Order) :
    carrying.orderOf h = some o ↔ h = ⟨63, 255⟩ ∧ o = plain .stow .loaded (.bay .W 1) (some (.cell 3839)) := by
  have e : carrying.slot h.slot = if 63 = h.slot then ⟨255, some (plain .stow .loaded (.bay .W 1) (some (.cell 3839)))⟩ else .cold := rfl
  obtain ⟨i, g⟩ := h
  simp only [State.orderOf, e]
  by_cases c : 63 = i
  · subst c
    by_cases d : 255 = g
    · subst d; simp [eq_comm]
    · simp [d, Ne.symm d]
  · simp [c, Ne.symm c, Slot.cold]

theorem carrying_directory : DirectorySound carrying where
  stored b n := by rw [carrying_bin, carrying_cell]; split_ifs <;> simp [Bin.cold, Cell.cold]
  atBay b st k := by
    rw [carrying_bin, show carrying.bay st k = .cold from rfl]; split_ifs <;> simp [Bin.cold, Bay.cold]
  onCrane b c := by
    rw [carrying_bin]
    cases c
    · rw [show (carrying.crane .A).carried = some 4095 from rfl]; split_ifs with e <;> simp [Bin.cold, e]
    · rw [show (carrying.crane .B).carried = none from rfl]; split_ifs <;> simp [Bin.cold]
  sixteen b := by rw [carrying_bin]; split_ifs <;> rfl
  pending b h := by rw [carrying_bin] at h; split_ifs at h <;> simp [Bin.cold] at h
  claimed b h := by rw [carrying_bin] at h; split_ifs at h <;> simp [Bin.cold] at h

theorem carrying_orders : OrdersSound carrying where
  slots i hi := by
    have e : carrying.slot i = if 63 = i then ⟨255, some (plain .stow .loaded (.bay .W 1) (some (.cell 3839)))⟩ else .cold := rfl
    rw [e, if_neg (by omega)]; rfl
  shaped h o e := by
    obtain ⟨rfl, rfl⟩ := (carrying_order _ _).1 e
    exact ⟨nofun, .inl ⟨_, _, rfl⟩, fun d hd => ⟨3839, by cases hd; rfl⟩⟩
  bound b h := by
    simp only [carrying_order]
    rw [carrying_bin]
    constructor
    · intro e
      split_ifs at e with c
      · cases e; exact ⟨_, ⟨rfl, rfl⟩, congrArg some c⟩
      · cases e
    · rintro ⟨o, ⟨rfl, rfl⟩, e⟩
      cases e; rfl
  reserved n h := by
    simp only [carrying_order]
    rw [carrying_cell]
    constructor
    · intro e
      split_ifs at e with c
      · cases e; exact ⟨_, ⟨rfl, rfl⟩, .inl rfl, by subst c; rfl⟩
      · cases e
    · rintro ⟨o, ⟨rfl, rfl⟩, -, e⟩
      cases e; rfl
  source h o b e := by
    obtain ⟨rfl, rfl⟩ := (carrying_order _ _).1 e
    exact fun _ c => absurd rfl c

theorem carrying_cranes : CranesSound carrying where
  active c h := by
    simp only [carrying_order]
    cases c
    · rw [show (carrying.crane .A).active = some ⟨63, 255⟩ from rfl]
      exact ⟨fun e => ⟨_, ⟨(Option.some.inj e).symm, rfl⟩, rfl, nofun⟩, fun ⟨_, ⟨e, _⟩, _⟩ => congrArg some e.symm⟩
    · exact ⟨nofun, by rintro ⟨o, ⟨-, rfl⟩, e, -⟩; cases e⟩
  loaded c h o e e' _ := by
    obtain ⟨rfl, rfl⟩ := (carrying_order _ _).1 e'
    cases c
    · exact ⟨nofun, rfl⟩
    · cases e
  dispatched c h o _ e' d := by obtain ⟨rfl, rfl⟩ := (carrying_order _ _).1 e'; cases d
  orphan c := by cases c <;> decide +kernel

theorem wit_StepKeepsTheLedger :
    carrying.tablesWf = true ∧ LedgerSound carrying ∧ ∃ t, step carrying = .next t ∧ (t.bin 4095).place = .stored 3839 :=
  ⟨by decide +kernel, ⟨carrying_directory, carrying_orders, carrying_cranes⟩, _, rfl, by decide +kernel⟩

/-- Bin 4095 with its compartments. -/
def withComps (x : BinPlace) (c : Comp) : State :=
  State.reset.setBin 4095 { Bin.cold with place := x, comps := List.replicate 15 .occupied ++ [c] }

theorem wit_SetcmpSetsCompartments :
    ((withComps .misplaced .free).serves .S ∧ (List.replicate 16 1).length = 16 ∧ (∀ x ∈ List.replicate 16 1, x < 2) ∧
        ((withComps .misplaced .free).bin 4095).order = none ∧ .pendingPick ∉ ((withComps .misplaced .free).bin 4095).comps ∧
        .claimed ∉ ((withComps .misplaced .free).bin 4095).comps) ∧
      .pendingPick ∈ ((withComps (.stored 0) .pendingPick).bin 4095).comps ∧ .claimed ∈ ((withComps (.stored 0) .claimed).bin 4095).comps ∧
      (List.replicate 15 0).length ≠ 16 ∧ ∃ x ∈ List.replicate 15 0 ++ [2], 2 ≤ x := by
  exact ⟨⟨serves_of (by decide +kernel), by decide, by decide, rfl, by decide +kernel, by decide +kernel⟩, by decide +kernel, by decide +kernel,
    by decide, by decide⟩

theorem wit_BinsMoveWhole : ∃ t, t = (placed (.atBay .W 1)).loadFromBay .A .W 1 4095 := ⟨_, rfl⟩

/-! ### Orders -/

theorem wit_CreationNumbersTheOrder :
    (∃ t h, State.reset.create (plain .fetch .queued (.cell 0) none) = some (t, h)) ∧
      ((0 : Nat) < 2147483647 ∧ 2147483647 < 2147483648 ∧
        (2147483646 : BitVec 32) = 4294967295 + BitVec.ofNat 32 2147483647) := ⟨⟨_, _, rfl⟩, by decide⟩

theorem wit_OrderEnds :
    ∀ o, o = plain .fetch .queued (.cell 0) none → ((withOrder o).slot 63).order = some o := fun _ _ => rfl

theorem wit_CancelEndsAnOrder :
    (let o := plain .fetch .queued (.cell 0) none
     (withOrder o).orderOf ⟨63, 255⟩ = some o ∧ o.issuer = .C ∧ o.kind = .fetch ∧ o.state = .queued) ∧
      (withOrder (plain .fetch .loaded (.cell 0) none)).serves .C ∧ (withOrder (plain .fetch .loaded (.cell 0) none)).serves .S ∧
      (∀ o, (withOrder (plain .fetch .loaded (.cell 0) none)).orderOf ⟨63, 255⟩ = some o →
        ¬(o.issuer = .C ∧ o.kind = .fetch ∧ o.state = .queued)) ∧
      (withOrder (plain .fetch .loaded (.cell 0) none)).orderOf ⟨63, 0⟩ = none := by
  refine ⟨by decide +kernel, serves_of (by decide +kernel), serves_of (by decide +kernel), ?_, rfl⟩
  intro o h
  cases h
  decide

/-- Every slot of the order table taken. -/
def full : State :=
  { State.reset with slots := (List.range 64).map (fun i => (i, ⟨1, some (plain .fetch .queued (.cell 0) none)⟩)) }

theorem wit_MoveCreatesAnOrder :
    (let s := stored.setCell 0 ⟨.empty, none, 0⟩
     s.serves .S ∧ (s.bin 4095).order = none ∧ (∃ m, (s.bin 4095).place = .stored m ∧ Place.cell 3839 = .cell m ∧
        .B = (if m / 24 < s.settings.split then Crane.A else .B) ∧ 11 = m % 24 / 2) ∧ (s.cell 0).state = .empty ∧
      s.sched.wing = .normal ∧ s.freeSlot = some 0) ∧
      (∃ st bay, ((placed (.atBay .E 1)).bin 4095).place = .atBay st bay ∧ .B = craneOf st) ∧
      (∃ c, ((placed (.onCrane .A)).bin 4095).place = .onCrane c) ∧ ((placed .misplaced).bin 4095).place = .misplaced ∧
      (State.reset.bin 0).place = .unregistered ∧ (stored.cell 3838).state ≠ .empty ∧
      (let s := (stored.setCell 0 ⟨.empty, none, 0⟩).setSched { Scheduler.cold with wing := .held }
       (s.cell 0).state = .empty ∧ s.sched.wing = .held) ∧
      ((full.setCell 0 ⟨.empty, none, 0⟩).cell 0).state = .empty ∧ full.sched.wing = .normal ∧ full.freeSlot = none := by
  refine ⟨⟨serves_of (by decide +kernel), rfl, ⟨3839, by decide +kernel⟩, by decide +kernel⟩, ⟨.E, 1, by decide +kernel⟩, ⟨.A, rfl⟩, ?_⟩
  decide +kernel

theorem wit_SuspicionAndRedestination :
    (∀ x ∈ ([.suspect, .blocked, .occupied 4095, .unverified, .reserved ⟨63, 255⟩] : List CellState), ((celled x).cell 3839).state = x) ∧
      (let o := plain .stow .loaded (.crane .A) (some (.cell 3839))
       let s := (withOrder o).setCell 3839 ⟨.reserved ⟨63, 255⟩, none, 0⟩
       s.slot 63 = ⟨255, some o⟩ ∧ o.dest = some (.cell 3839) ∧
        (s.setCell 3839 ⟨.empty, none, 0⟩).homeScan o.crane = some 3839) ∧
      State.reset.destScan (stationOf .A) = none := by
  refine ⟨by decide +kernel, by decide +kernel, by decide +kernel⟩

/-! ### The dispatcher -/

/-- Crane A waits for work. -/
def waitingA (s : State) : State := { s with craneA := { s.craneA with waiting := true } }

/-- A FETCH of cell 3839 for crane B to station E, QUEUED in slot 63. -/
def queuedB : Order := { plain .fetch .queued (.cell 3839) (some (.station .E)) with crane := .B }

/-- Reset with credits in crane B's hand. -/
def withCredit (s : State) : State := s.setSchedCrane .B ⟨8, 1919, false, true⟩

theorem wit_WaitingCranesAreTold :
    (let t := { withOrder queuedB with craneB := { State.reset.craneB with waiting := true } }
     (t.slot 63).order = some queuedB ∧ queuedB.state = .queued ∧ queuedB.crane = .B ∧ (State.reset.slot 63).gen ≠ (t.slot 63).gen ∧
      (t.crane .B).waiting = true ∧ (t.crane .B).orphan = false ∧ (t.crane .B).active = none ∧
      0 < (t.eligibleOrders .B).length) ∧
    ((State.reset.zone 3).state ≠ ((State.reset.setZone 3 ⟨.clearing, true, none⟩).zone 3).state ∧
      (State.reset.seg 41).holder ≠ (ends.seg 41).holder ∧
      (State.reset.shutter 2).state ≠ ((State.reset.setShutter 2 { Shutter.atTop with state := .hold }).shutter 2).state ∧
      (State.reset.bay .E 1).state.code ≠ ((State.reset.setBay .E 1 ⟨.occupied 0, false, false⟩).bay .E 1).state.code ∧
      State.reset.sched.wing ≠ .held ∧ State.reset.sched.wing = .normal) ∧
    ((State.reset).crane .A).waiting = false ∧ ((waitingA .reset).eligibleOrders .A).length = 0 := by decide +kernel

/-- ASSIGN empties bay W 0 while crane A waits and an order is eligible for it: crane A is told nothing (R31). -/
theorem test_assign_tells_no_crane :
    let s := (waitingA ((withOrder (plain .fetch .queued (.cell 0) (some (.station .W)))).setBin 4095
      { Bin.cold with place := .atBay .W 0 })).setBay .W 0 ⟨.occupied 4095, false, false⟩
    let t := next (exec (.assign .S 4095 none) s)
    (t.bay .W 0).state = .empty ∧ 0 < (t.eligibleOrders .A).length ∧ t.craneA = s.craneA ∧ t.portA = s.portA ∧
      (t.port .S).sending = some (.ack .assign [.named 0, .absent]) ∧ (finish s t).craneA.waiting = false := by
  decide +kernel

theorem wit_SelectionAndDispatch :
    (let s := (withOrder { queuedB with seq := 5 }).setSlot 0 ⟨1, some { queuedB with seq := 9, level := 7 }⟩
     (∀ e ∈ s.eligibleOrders .B, (e.2.seq - 5).toNat < 2147483648) ∧ choose (s.candidates .B) 7 = some (0, [63]) ∧
      (0, { queuedB with seq := 9, level := 7 }) ∈ s.eligibleOrders .B ∧ (∀ e ∈ s.eligibleOrders .B, 3 ≤ e.2.authority) ∧
      (∀ e ∈ s.eligibleOrders .B, e.2.level = 7 → e.1 = 0) ∧ (∀ e ∈ s.eligibleOrders .B, e.2.bypass < 3)) ∧
    (let s := withOrder queuedB
     (63, queuedB) ∈ s.eligibleOrders .B ∧ (holdRun s .A 40 40).reachable .B queuedB = false ∧
      (63, queuedB) ∉ (s.setZone 3 ⟨.degraded, false, none⟩).eligibleOrders .B) ∧
    (let s := withOrder queuedB
     s.slot 63 = ⟨255, some queuedB⟩ ∧ (s.bay .E 0).state = .empty) ∧
    (let s := (withOrder queuedB).setBay .E 0 ⟨.occupied 0, false, false⟩
     (s.bay .E 0).state ≠ .empty ∧ (s.bay .E 1).state = .empty) ∧
    (let o := plain .stow .queued (.bay .W 1) none
     (withOrder o).slot 63 = ⟨255, some o⟩ ∧ o.source = .bay .W 1 ∧ o.bin = some 4095) ∧
    (let o := plain .move .queued (.cell 3839) none
     (withOrder o).slot 63 = ⟨255, some o⟩ ∧ o.kind = .move ∧ o.source = .cell 3839) := by decide +kernel

/-- Crane B carries bin 4095 with no order. -/
def orphanB : State :=
  { placed (.onCrane .B) with craneB := { State.reset.craneB with carried := some 4095, orphan := true } }

theorem wit_NextGivesWorkOrNone :
    (let s := withActive (plain .stow .loaded (.bay .W 0) none)
     s.serves .A ∧ (∀ b, b < 2 → (s.bay (stationOf .A) b).stowWanted = false) ∧ (s.crane .A).active = some ⟨63, 255⟩ ∧
      s.slot 63 = ⟨255, some (plain .stow .loaded (.bay .W 0) none)⟩) ∧
    (let s := withOrder queuedB
     s.serves .B ∧ (∀ b, b < 2 → (s.bay (stationOf .B) b).stowWanted = false) ∧ (s.crane .B).active = none ∧ (s.crane .B).orphan = false ∧
      choose (s.candidates .B) 11 = some (63, [])) ∧
    (let s := orphanB.setCell 3839 ⟨.empty, none, 0⟩
     s.serves .B ∧ (s.crane .B).orphan = true ∧ (s.crane .B).carried = some 4095 ∧ (s.bin 4095).order = none ∧
      s.sched.wing = .normal ∧ s.freeSlot = some 0 ∧ s.homeScan .B = some 3839) ∧
    (orphanB.serves .B ∧ (orphanB.crane .B).orphan = true ∧ orphanB.homeScan .B = none) ∧
    ((State.reset.crane .B).active = none ∧ State.reset.eligibleOrders .B = [] ∧ (State.reset.schedCrane .B).credits = 0) ∧
    (let s := withCredit .reset
     s.serves .B ∧ s.eligibleOrders .B = [] ∧ (s.schedCrane .B).credits ≠ 0 ∧ s.cursorSearch .B = some 1919 ∧
      s.reachable .B (verifyOrder .B 3839 3) = true) ∧
    (let s := holdRun (withCredit .reset) .A 40 40
     s.serves .B ∧ s.cursorSearch .B = some 1919 ∧ s.reachable .B (verifyOrder .B 3839 3) = false) := by
  refine ⟨⟨serves_of (by decide +kernel), by decide +kernel⟩, ⟨serves_of (by decide +kernel), by decide +kernel⟩,
    ⟨serves_of (by decide +kernel), by decide +kernel⟩, ⟨serves_of (by decide +kernel), by decide +kernel⟩, by decide +kernel,
    ⟨serves_of (by decide +kernel), by decide +kernel⟩, ⟨serves_of (by decide +kernel), by decide +kernel⟩⟩

/-! ### Crane reports -/

/-- A STOW of bin 4095 to cell 3839 for crane A, LOADED and active, its cell RESERVED. -/
def loadedStow : State :=
  (withActive (plain .stow .loaded (.bay .W 1) (some (.cell 3839)))).setCell 3839 ⟨.reserved ⟨63, 255⟩, none, 0⟩

/-- A FETCH of bin 4095 from cell 3839 to station W for crane A, active. -/
def activeFetch (st : OrderState) : State :=
  (withActive { plain .fetch st (.cell 3839) (some (.station .W)) with destBay := some 1 }).setBay .W 1 ⟨.inbound ⟨63, 255⟩, false, true⟩

theorem wit_ReportsNameTheActiveOrder :
    (loadedStow.serves .A ∧ (loadedStow.crane .A).active ≠ some ⟨63, 0⟩) ∧ (State.reset.serves .B ∧ State.reset.orderOf ⟨0, 0⟩ = none) :=
  ⟨⟨serves_of (by decide +kernel), by decide +kernel⟩, serves_of (by decide +kernel), rfl⟩

theorem wit_LoadTakesTheBin :
    (loadedStow.serves .A ∧ (loadedStow.crane .A).active = some ⟨63, 255⟩ ∧ (loadedStow.slot 63).order.map (·.state) = some .loaded) ∧
    (let s := ((activeFetch .dispatched).setBin 4095 { Bin.cold with place := .stored 3839 }).setCell 3839 ⟨.occupied 4095, none, 0⟩
     s.serves .A ∧ (s.crane .A).active = some ⟨63, 255⟩ ∧ (s.cell 3839).state = .occupied 4095 ∧ (s.bin 4095).place = .stored 3839) ∧
    (let o := plain .stow .dispatched (.bay .W 1) (some (.cell 3839))
     let s := (withActive o).setBay .W 1 ⟨.outbound 4095, true, true⟩
     s.serves .A ∧ s.slot 63 = ⟨255, some o⟩ ∧ (s.bay .W 1).state = .outbound 4095 ∧ (s.zone (zoneOfCell 3839)).state = .inService ∧
      ((s.setZone 3 ⟨.clearing, true, some 1⟩).zone (zoneOfCell 3839)).state ≠ .inService) ∧
    (let o := plain .stow .dispatched (.bay .W 1) none
     let s := (withActive o).setBay .W 1 ⟨.outbound 4095, true, true⟩
     s.serves .A ∧ s.slot 63 = ⟨255, some o⟩ ∧ (s.bay .W 1).state = .outbound 4095 ∧ o.dest = none) ∧
    (((activeFetch .dispatched).serves .A ∧ ((activeFetch .dispatched).cell 3839).state ≠ .occupied 4095) ∧
      ((withActive (plain .stow .dispatched (.bay .W 1) none)).bay .W 1).state ≠ .outbound 4095 ∧
      ({ plain .verify .dispatched (.cell 0) none with bin := none } : Order).bin = none) := by
  refine ⟨⟨serves_of (by decide +kernel), by decide +kernel⟩, ⟨serves_of (by decide +kernel), by decide +kernel⟩,
    ⟨serves_of (by decide +kernel), by decide +kernel⟩, ⟨serves_of (by decide +kernel), by decide +kernel⟩,
    ⟨serves_of (by decide +kernel), by decide +kernel⟩, by decide +kernel⟩

theorem wit_DoneDeliversTheBin :
    ((activeFetch .loaded).serves .A ∧ ((activeFetch .loaded).crane .A).active = some ⟨63, 255⟩ ∧
      ((activeFetch .loaded).slot 63).order.map (fun o => (o.state, o.bin, o.dest, o.destBay)) =
        some (.loaded, some 4095, some (.station .W), some 1) ∧ ((activeFetch .loaded).bay .W 1).state = .inbound ⟨63, 255⟩) ∧
    (loadedStow.serves .A ∧ (loadedStow.slot 63).order.map (fun o => (o.state, o.dest)) = some (.loaded, some (.cell 3839)) ∧
      (loadedStow.cell 3839).state = .reserved ⟨63, 255⟩) ∧
    (plain .stow .loaded (.crane .A) none).state = .loaded ∧ ((withActive (plain .stow .loaded (.bay .W 1) (some (.cell 0)))).cell 0).state ≠
      .reserved ⟨63, 255⟩ := by
  refine ⟨⟨serves_of (by decide +kernel), by decide +kernel⟩, ⟨serves_of (by decide +kernel), by decide +kernel⟩, by decide +kernel⟩

/-- A VERIFY of cell 3839 for crane A, DISPATCHED and active, beside an order of bin 4095 in slot 0. -/
def otherOrder (o : Order) : State :=
  ((withActive { plain .verify .dispatched (.cell 3839) none with bin := none }).setSlot 0 ⟨1, some o⟩).setBin 4095
    { Bin.cold with place := .stored 3839, order := some ⟨0, 1⟩ }

theorem wit_UnableEndsOrRedestines :
    ((activeFetch .dispatched).serves .A ∧ ((activeFetch .dispatched).crane .A).active = some ⟨63, 255⟩ ∧
      ((activeFetch .dispatched).slot 63).order.map (fun o => (o.state, o.source, o.kind)) = some (.dispatched, .cell 3839, .fetch) ∧
      (∀ b, ((activeFetch .dispatched).cell 3839).state ≠ .occupied b) ∧ (∀ h, ((activeFetch .dispatched).cell 3839).state ≠ .reserved h) ∧
      Place.cell 3839 ≠ .cell 0 ∧ some (Place.station .W) ≠ some (.cell 0)) ∧
    (loadedStow.serves .A ∧ (loadedStow.slot 63).order.map (fun o => (o.state, o.kind, o.dest)) = some (.loaded, .stow, some (.cell 3839))) ∧
    ((withActive (plain .stow .loaded (.crane .A) none)).slot 63).order.map (fun o => (o.state, o.dest)) = some (.loaded, none) ∧
    (let o := { plain .stow .dispatched (.bay .W 1) (some (.cell 3839)) with purpose := .auto }
     ((withActive o).slot 63).order = some o ∧ o.source = .bay .W 1 ∧ o.state = .dispatched ∧ o.dest = some (.cell 3839)) ∧
    (let s := (withActive { plain .verify .dispatched (.cell 3839) none with bin := none }).setCell 3839 ⟨.occupied 4095, none, 0⟩
     s.serves .A ∧ (s.cell 3839).state = .occupied 4095 ∧ (s.bin 4095).order = none) ∧
    (let s := (otherOrder (plain .fetch .queued (.cell 3839) none)).setCell 3839 ⟨.occupied 4095, none, 0⟩
     s.serves .A ∧ (s.cell 3839).state = .occupied 4095 ∧ (s.bin 4095).order = some ⟨0, 1⟩ ∧
      s.slot 0 = ⟨1, some (plain .fetch .queued (.cell 3839) none)⟩) ∧
    (let s := (otherOrder (plain .move .queued (.cell 0) (some (.cell 3839)))).setCell 3839 ⟨.reserved ⟨0, 1⟩, none, 0⟩
     (s.cell 3839).state = .reserved ⟨0, 1⟩ ∧ s.slot 0 = ⟨1, some (plain .move .queued (.cell 0) (some (.cell 3839)))⟩) := by
  refine ⟨⟨serves_of (by decide +kernel), by decide +kernel, by decide +kernel, nofun, nofun, by decide, by decide⟩,
    ⟨serves_of (by decide +kernel), by decide +kernel⟩, by decide +kernel, by decide +kernel,
    ⟨serves_of (by decide +kernel), by decide +kernel⟩, ⟨serves_of (by decide +kernel), by decide +kernel⟩, by decide +kernel⟩

/-! ### The rail -/

/-- Crane A holds 0 to 9 and crane B 11 to 12; segment 10 and shutter 0 as given. -/
def tight (x : Seal) (sh : ShutterState) : State :=
  (holdRun ((holdRun .reset .A 0 9).setSeg 10 ⟨none, x⟩) .B 20 21).setShutter 0 { Shutter.atTop with state := sh }

theorem wit_RsvGrantsOrIsRefused :
    ((tight .open .hold).serves .A ∧ craneOfPort .A = some .A) ∧
    lowestIn 20 20 (fun n => ((tight .open .hold).seg n).holder = some (otherCrane .A)) 20 ∧
    ((∀ n, 10 ≤ n → n ≤ 10 → ((tight .sealed .open).seg n).holder ≠ some (otherCrane .A)) ∧
      lowestIn 10 10 (fun n => ((tight .sealed .open).seg n).holder ≠ some .A ∧ ((tight .sealed .open).seg n).sealState ≠ .open) 10) ∧
    ((tight .open .open).holdingEnds .A = some (0, 9) ∧ 9 + 1 < 11 ∧ (tight .open .open).holdingEnds .B = some (20, 21) ∧
      (State.reset.holdingEnds .A = none)) ∧
    (middle.holdingEnds .A = some (3, 7) ∧ (holdRun .reset .B 22 30).holdingEnds (otherCrane .A) = some (22, 30) ∧ 22 ≤ 41) ∧
    (lowestIn 0 2 (fun k => ((tight .open .hold).shutter k).state ≠ .open ∧ min 0 10 ≤ 10 * k + 10 ∧ 10 * k + 11 ≤ max 9 11) 0) ∧
    ((∀ n, 10 ≤ n → n ≤ 10 → ((tight .open .hold).seg n).holder = some .A ∨
        ((tight .open .hold).seg n).holder = none ∧ ((tight .open .hold).seg n).sealState = .open) ∧
      ∀ k, k < 3 → ((tight .open .hold).shutter k).state ≠ .open → ¬(min 0 10 ≤ 10 * k + 10 ∧ 10 * k + 11 ≤ max 9 10)) := by
  refine ⟨⟨serves_of (by decide +kernel), rfl⟩, ⟨by decide, by decide, by decide +kernel, by omega⟩,
    ⟨?_, by decide, by decide, by decide +kernel, by omega⟩, by decide +kernel, by decide +kernel,
    ⟨by decide, by decide, by decide +kernel, by omega⟩, ?_, by decide +kernel⟩
  · intro n h1 h2
    obtain rfl : n = 10 := by omega
    decide +kernel
  · intro n h1 h2
    obtain rfl : n = 10 := by omega
    decide +kernel

theorem wit_RelAndFrelReleaseOrAreRefused :
    (middle.holdingEnds .A = some (3, 7) ∧ (∀ n, 3 ≤ n → n ≤ 3 → (middle.seg n).holder = some .A ∧
        ¬((middle.crane .A).touchFirst ≤ n ∧ n ≤ (middle.crane .A).touchLast)) ∧ middle.serves .A ∧ middle.serves .S ∧
      (middle.crane .A).permit = false ∧ (middle.crane .A).ref = none ∧ ¬3 ≤ endSegment .A) ∧
    (lowestIn 8 8 (fun n => (middle.seg n).holder ≠ some .A) 8 ∧ (4 ≠ 3 ∧ 6 ≠ 7)) ∧
    ((tight .open .open).holdingEnds .A = some (0, 9) ∧
      lowestIn 0 0 (fun n => ((tight .open .open).crane .A).touchFirst ≤ n ∧ n ≤ ((tight .open .open).crane .A).touchLast) 0) ∧
    (let s := { tight .open .open with craneA := { (tight .open .open).craneA with touchFirst := 5, touchLast := 6, permit := true } }
     (s.crane .A).ref = none ∧ (∀ n, 0 ≤ n → n ≤ 0 → (s.seg n).holder = some .A ∧ ¬((s.crane .A).touchFirst ≤ n ∧ n ≤ (s.crane .A).touchLast)) ∧
      0 ≤ endSegment .A ∧ endSegment .A ≤ 0 ∧ 0 ≠ 9 ∧ s.serves .S ∧ (s.crane .A).permit = true) := by
  refine ⟨⟨by decide +kernel, ?_, serves_of (by decide +kernel), serves_of (by decide +kernel), by decide +kernel⟩,
    ⟨⟨by decide, by decide, by decide +kernel, by omega⟩, by decide⟩, ⟨by decide +kernel, by decide, by decide, by decide +kernel, by omega⟩,
    by decide +kernel, ?_, by decide, by decide, by decide, serves_of (by decide +kernel), by decide +kernel⟩
  · intro n h1 h2
    obtain rfl : n = 3 := by omega
    decide +kernel
  · intro n h1 h2
    obtain rfl : n = 0 := by omega
    decide +kernel

/-! ### Trips and supervision -/

/-- A crane's record with a trip of FIRE alone, or with a clear latch, its keepalive RUNNING. -/
def drivable (fire : Bool) : CraneRec :=
  { State.reset.craneA with
    tripLatched := fire, tripFirst := if fire then some .fire else none, tripCauses := if fire then [.fire] else []
    keepalive := .running 250, window := .ms250, creep := fire, permit := true }

/-- Crane A holds segments 0 to 9 and may be driven. -/
def driving (fire : Bool) : State := { holdRun .reset .A 0 9 with craneA := drivable fire }

theorem wit_ATripIsLatched :
    TripSound (ends.crane .A) ∧ .start ∈ (ends.crane .A).tripCauses ∧ .envelope ∉ (ends.crane .A).tripCauses :=
  ⟨ends_trip .A, by decide +kernel, by decide +kernel⟩

theorem wit_StopCreepAndCrendReachTheNamedCrane : (driving true).serves .S ∧ State.reset.serves .S :=
  ⟨serves_of (by decide +kernel), serves_of (by decide +kernel)⟩

theorem wit_KeepSetsTheKeepalive :
    (∀ e ∈ [(0, Window.stopped, KeepaliveState.stopped), (4, .ms2000, .running 2000)],
      e ∈ [(0, Window.stopped, KeepaliveState.stopped), (1, .ms250, .running 250), (2, .ms500, .running 500),
        (3, .ms1000, .running 1000), (4, .ms2000, .running 2000)]) ∧
      (driving true).serves .A ∧ craneOfPort .B = some .B ∧ (5 : Nat) ≤ 5 ∧ craneOfPort .C = none :=
  ⟨by decide, serves_of (by decide +kernel), rfl, le_rfl, rfl⟩

theorem wit_TimersRunOut :
    (driving true).running = true ∧ (∃ ms, ((driving true).crane .A).keepalive = .running ms) ∧
      (∀ ms, (State.reset.crane .B).keepalive ≠ .running ms) ∧
      (let o := { plain .move .dispatched (.cell 0) none with timer := some 0 }
       (withOrder o).slot ((63 : Fin 64) : Nat) = ⟨255, some o⟩ ∧ o.timer ≠ none) ∧
      (∀ o, (State.reset.slot ((0 : Fin 64) : Nat)).order = some o → o.timer = none) :=
  ⟨by decide +kernel, ⟨250, by decide +kernel⟩,
    fun ms e => by have h : (State.reset.crane .B).keepalive = .stopped := by decide +kernel
                   exact absurd (h.symm.trans e) (by simp),
    by decide +kernel,
    fun o e => by have h : (State.reset.slot 0).order = none := by decide +kernel
                  exact absurd (h.symm.trans e) (by simp)⟩

theorem wit_ClrtClearsTheTrip :
    ((driving false).serves .A ∧ ((driving false).crane .A).tripLatched = false) ∧
    ((driving true).serves .A ∧ ((driving true).crane .A).tripLatched = true ∧ ((driving true).crane .A).dN8 = 0 ∧
      (∀ n, ((driving true).crane .A).touchFirst ≤ n → n ≤ ((driving true).crane .A).touchLast → ((driving true).seg n).holder = some .A) ∧
      ((driving true).crane .A).keepaliveRunning = true ∧ ((driving true).zone (zoneOfSegment 0)).state = .inService) ∧
    (¬∀ n, (State.reset.crane .A).touchFirst ≤ n → n ≤ (State.reset.crane .A).touchLast → (State.reset.seg n).holder = some .A) ∧
    ((ends.crane .A).dN8 = 0 ∧ (ends.crane .A).keepaliveRunning = false) ∧
    ({ drivable true with dN8 := -1 } : CraneRec).dN8 ≠ 0 ∧ (((driving true).setZone 0 ⟨.clearing, true, none⟩).zone 0).state = .clearing ∧
    (let s := { (driving true).setShutter 0 { Shutter.atTop with state := .jammed } with
                craneA := { drivable true with touchFirst := 10, touchLast := 11 } }
     ShutterBars (s.shutter 0).state ∧ (s.crane .A).touchFirst ≤ 10 * 0 + 10 ∧ 10 * 0 + 11 ≤ (s.crane .A).touchLast) := by
  refine ⟨⟨serves_of (by decide +kernel), by decide +kernel⟩, ⟨serves_of (by decide +kernel), by decide +kernel, by decide +kernel, ?_, by decide +kernel⟩, ?_,
    by decide +kernel, by decide +kernel, by decide +kernel, .inr (.inr (.inr rfl)), by decide +kernel⟩
  · intro n h1 h2
    have h2 : n ≤ 0 := h2
    obtain rfl : n = 0 := by omega
    decide +kernel
  · intro h
    exact absurd (h 0 (by decide +kernel) (by decide +kernel)) (by decide +kernel)

theorem wit_StepKeepsEnvelopesHeld :
    RailSound ends ∧ (∀ c, TripSound (ends.crane c)) ∧ EnvelopeHeld ends ∧ (∃ t, step ends = .next t) ∧
      ((driving true).crane .A).permit = true := by
  refine ⟨ends_rail, ends_trip, ?_, ⟨_, rfl⟩, rfl⟩
  intro c h
  cases c <;> exact absurd h (by decide +kernel)

/-- Crane A with its filters as given. -/
def withFilters (r : CraneRec) (x : Filter) : State :=
  { State.reset with craneA := { r with filters := ⟨x, x, x, x⟩ } }

theorem wit_EncoderInputsAreFiltered :
    (let s := withFilters State.reset.craneA ⟨true, false, some 2⟩
     s.running = true ∧ ((s.crane .A).filters.get .home).filtered = false ∧ (s.crane .A).filters.phase1.excursion ≠ none ∧
      (s.crane .A).filters.phase2.excursion ≠ none ∧ ((s.crane .A).filters.get .index).excursion ≠ none ∧ (s.crane .A).ref = none) ∧
    (let s := withFilters State.reset.craneA ⟨false, true, none⟩
     s.running = true ∧ (s.crane .A).filters.phase1.excursion = none ∧ (s.crane .A).filters.phase2.excursion = none ∧
      ((s.crane .A).filters.get .home).filtered = true) ∧
    (let s := withFilters { State.reset.craneA with ref := some ⟨1000, some 1500, 1200⟩, counter := 9698 } ⟨true, false, some 2⟩
     ((s.crane .A).ref.bind (·.phase)) = some 1500 ∧ 0 < (s.craneSettings .A).cpr ∧
      (((s.crane .A).counter - 1500).toInt % ((s.craneSettings .A).cpr : Int) = 6)) ∧
    ({ State.reset.craneA with ref := some ⟨1000, none, 1200⟩ } : CraneRec).ref = some ⟨1000, none, 1200⟩ := by
  decide +kernel

/-- Reset with a zone's state. -/
def zoned (z : Nat) (x : ZoneState) (timer : Option Nat) : State := State.reset.setZone z ⟨x, true, timer⟩

theorem wit_PositionSampleComputesTheEnvelope :
    (let s := { ends with craneA := { ends.craneA with ref := some ⟨1000, none, 1200⟩, counter := 41000 } }
     s.running = true ∧ TripSound (s.crane .A)) ∧
    ((movingEast 40400).running = true ∧ ((movingEast 40400).crane .A).tripLatched = false ∧ TripSound ((movingEast 40400).crane .A)) ∧
    (let s := State.reset.setShutter 2 { Shutter.atTop with state := .hold }
     (s.shutter 2).state = .hold ∧ (State.reset.shutter 0).state ≠ .hold) ∧
    (let s := (zoned 1 .sealing none).setShutter 0 { Shutter.atTop with state := .hold }
     let u := { s with craneA := { s.craneA with touchFirst := 10, touchLast := 11 } }
     (u.shutter 0).state = .hold ∧ (u.crane .A).touchFirst ≤ 10 ∧ 11 ≤ (u.crane .A).touchLast ∧ (u.crane .A).dN8 = 0 ∧
       (u.zone (0 + 1)).state = .sealing) :=
  ⟨⟨by decide +kernel, nofun, fun _ => ⟨.start, rfl, by decide +kernel⟩, by decide +kernel⟩,
    ⟨by decide +kernel, by decide +kernel, fun _ => ⟨rfl, rfl⟩, nofun, by decide +kernel⟩, by decide +kernel, by decide +kernel⟩

/-! ### Lending and returns -/

/-- Bin 4095 in a place, with compartment 15 and an order as given, the others OCCUPIED. -/
def lent (x : BinPlace) (c : Comp) (h : Option Handle) : State :=
  State.reset.setBin 4095 { Bin.cold with place := x, comps := List.replicate 15 .occupied ++ [c], order := h }

theorem wit_FetchLendsOrIsRefused :
    (let s := lent (.stored 3839) .occupied none
     s.serves .C ∧ ([15, 0, 15] : List Nat) = [15, 0] ++ 15 :: [] ∧ [15, 0].Nodup ∧ 15 ∈ [15, 0] ∧ (∀ i ∈ [0, 15], i < 16) ∧ [0, 15].Nodup ∧
      (s.bin 4095).place = .stored 3839 ∧ (s.bin 4095).quarantine = false ∧ (∀ i ∈ [0, 15], (s.bin 4095).comp i = .occupied) ∧
      (s.bin 4095).order = none ∧ (∀ z ∈ [zoneOfCell 3839, zoneOfStation .W], (s.zone z).state = .inService) ∧
      s.sched.wing = .normal ∧ s.freeSlot = some 0) ∧
    ((lent (.stored 3839) .free none).serves .C ∧ [0, 15] = [0] ++ 15 :: [] ∧
      (∀ j ∈ [0], ((lent (.stored 3839) .free none).bin 4095).comp j = .occupied) ∧
      ((lent (.stored 3839) .free none).bin 4095).comp 15 ≠ .occupied) ∧
    (((lent (.onCrane .B) .free none).bin 4095).place = .onCrane .B ∧ Station.E ≠ .W ∧
      ((lent (.atBay .E 1) .free none).bin 4095).place = .atBay .E 1 ∧
      ((lent (.stored 0) .free (some ⟨0, 1⟩)).bin 4095).order ≠ none) ∧
    (let s := (lent (.stored 3839) .occupied none).setZone 3 ⟨.recovering, false, none⟩
     (s.zone (zoneOfCell 3839)).state ≠ .inService ∧ (s.zone (zoneOfCell 3839)).state ≠ .degraded) ∧
    (let s := (lent (.stored 3839) .occupied none).setZone 0 ⟨.clearing, true, none⟩
     (s.zone (zoneOfStation .W)).state ≠ .inService ∧ (s.zone (zoneOfStation .W)).state ≠ .degraded) ∧
    (let o := { plain .stow .queued (.bay .W 1) none with purpose := .auto }
     let s := (lent (.atBay .W 1) .occupied (some ⟨63, 255⟩)).setSlot 63 ⟨255, some o⟩
     s.serves .C ∧ (s.bin 4095).order = some ⟨63, 255⟩ ∧ s.slot 63 = ⟨255, some o⟩ ∧ o.kind = .stow ∧ o.purpose = .auto ∧
      ({ o with state := .dispatched } : Order).state ≠ .queued) := by
  refine ⟨⟨serves_of (by decide +kernel), by decide +kernel⟩, ⟨serves_of (by decide +kernel), by decide +kernel⟩, by decide +kernel,
    by decide +kernel, by decide +kernel, ⟨serves_of (by decide +kernel), by decide +kernel⟩⟩

theorem wit_DeskRequestsChangeOneCompartment :
    (∀ x ∈ [Comp.pendingPick, .claimed], (let s := lent (.atBay .E 1) x none
      (s.bin 4095).comp 15 = x ∧ (s.bin 4095).place = .atBay .E 1)) ∧ (lent (.atBay .E 1) .free none).serves .C ∧
      ((lent (.atBay .E 1) .free none).bin 4095).comp 0 ≠ .pendingPick ∧
      (∀ st bay, ((lent (.stored 0) .pendingPick none).bin 4095).place ≠ .atBay st bay) ∧
      ((lent (.stored 0) .pendingPick none).bin 4095).comp 15 = .pendingPick := by
  refine ⟨by decide +kernel, serves_of (by decide +kernel), by decide +kernel, ?_, by decide +kernel⟩
  intro st bay
  have h : ((lent (.stored 0) .pendingPick none).bin 4095).place = .stored 0 := by decide +kernel
  simp [h]

/-- Bin 4095 in bay E1 with nothing open, the keep flag clear. -/
def inBay (c : Comp) : State := (lent (.atBay .E 1) c none).setBay .E 1 ⟨.occupied 4095, false, true⟩

theorem wit_RelbayEvaluatesTheAutoStow :
    (inBay .free).serves .C ∧ ((inBay .free).bay .E 1).state = .occupied 4095 ∧
      (∀ c ∈ ((inBay .free).bin 4095).comps, c ≠ .pendingPick ∧ c ≠ .claimed) ∧ ((inBay .free).bay .E 1).keep = false ∧
      ((inBay .free).bin 4095).order = none ∧
      (let s := (inBay .free).setCell 3839 ⟨.empty, none, 0⟩
       s.sched.wing = .normal ∧ s.freeSlot = some 0 ∧ s.destScan .E = some 3839) ∧
      (inBay .free).destScan .E = none ∧ (∃ c ∈ ((inBay .claimed).bin 4095).comps, c = .pendingPick ∨ c = .claimed) :=
  ⟨serves_of (by decide +kernel), by decide +kernel⟩

/-- NEXT of crane B where a stow is wanted at bay E1: the evaluation creates it, and NEXT then finds it. -/
theorem wit_NextGivesWorkOrNone_wanted :
    (let s := (inBay .free).setCell 3839 ⟨.empty, none, 0⟩
     let v := s.setCrane .B { s.crane .B with lastLevel := 11 }
     let e := (v.autoStow .E 1).1
     s.serves .B ∧ (v.bay .E 0).stowWanted = false ∧ (v.bay .E 1).stowWanted = true ∧ (e.crane .B).active = none ∧
      (e.crane .B).orphan = false ∧ choose (e.candidates .B) 11 = some (0, [])) :=
  ⟨serves_of (by decide +kernel), by decide +kernel⟩

theorem wit_SlotClaimsOrFetches :
    ((inBay .free).serves .C ∧ ((inBay .free).bay .E 1).state = .occupied 4095 ∧ ((inBay .free).bay .E 0).state = .empty ∧
      ((inBay .free).bin 4095).comps[15]? = some .free ∧
      (∀ i, i < 15 → ((inBay .free).bin 4095).comps[i]? ≠ some .free)) ∧
    (let o := { plain .fetch .queued (.cell 0) (some (.station .E)) with purpose := .ret }
     (withOrder o).serves .C ∧ (withOrder o).slot 63 = ⟨255, some o⟩ ∧
      ∀ bay, bay < 2 → ((withOrder o).bay .E bay).state = .empty) ∧
    (State.reset.returnScan .E = none ∧ State.reset.homeScan .A = none ∧
      ((State.reset.setCell 3839 ⟨.empty, none, 0⟩).homeScan .A = some 3839)) ∧
    (let s := (lent (.stored 3839) .free none).setCell 3839 ⟨.occupied 4095, none, 0⟩
     let t := s.setBin 4095 { s.bin 4095 with comps := List.replicate 12 .occupied ++ List.replicate 4 .free }
     t.serves .C ∧ t.returnScan .E = some 3839 ∧ (t.cell 3839).state = .occupied 4095 ∧ t.sched.wing = .normal ∧ t.freeSlot = some 0) := by
  refine ⟨⟨serves_of (by decide +kernel), by decide +kernel⟩, ⟨serves_of (by decide +kernel), by decide +kernel⟩, by decide +kernel,
    ⟨serves_of (by decide +kernel), by decide +kernel⟩⟩

/-! ### Verification -/

/-- A VERIFY of cell 3839 for crane A, DISPATCHED and active, the cell and its bin's place as given. -/
def verifying (x : CellState) (unread : Nat) (y : BinPlace) : State :=
  ((withActive { plain .verify .dispatched (.cell 3839) none with bin := none }).setCell 3839 ⟨x, some 65535, unread⟩).setBin 4095
    { Bin.cold with place := y }

theorem wit_TagAppliesTheResult :
    (let s := verifying (.occupied 4095) 1 (.stored 3839)
     s.serves .A ∧ (s.crane .A).active = some ⟨63, 255⟩ ∧
      (s.slot 63).order.map (fun o => (o.kind, o.state, o.source)) = some (.verify, .dispatched, .cell 3839) ∧
      (s.cell 3839).state = .occupied 4095 ∧ (s.bin 4095).place = .stored 3839 ∧ (s.cell 3839).unread ≠ 0 ∧
      (s.bin 0).place = .unregistered) ∧
    (let s := (verifying (.occupied 4095) 0 (.stored 3839)).setCell 0 ⟨.occupied 0, none, 0⟩
     let t := s.setBin 0 { Bin.cold with place := .stored 0 }
     (t.bin 0).place = .stored 0 ∧ 0 ≠ 3839 ∧ (t.cell 0).state = .occupied 0 ∧ (t.cell 3839).unread = 0) ∧
    (∀ x ∈ ([.empty, .unverified, .reserved ⟨0, 0⟩, .suspect, .blocked] : List CellState),
      ((verifying x 0 .unregistered).cell 3839).state = x) ∧
    (((verifying .unverified 0 .misplaced).bin 4095).place ≠ .unregistered ∧ (plain .fetch .dispatched (.cell 0) none).kind ≠ .verify) ∧
    (loadedStow.serves .A ∧ (loadedStow.slot 63).order.map (fun o => (o.kind, o.source)) = some (.stow, .bay .W 1)) ∧
    (let s := (lent (.stored 0) .occupied (some ⟨63, 255⟩)).setSlot 63 ⟨255, some (plain .fetch .loaded (.cell 0) none)⟩
     (s.bin 4095).order = some ⟨63, 255⟩ ∧ s.slot 63 = ⟨255, some (plain .fetch .loaded (.cell 0) none)⟩) :=
  ⟨⟨serves_of (by decide +kernel), by decide +kernel⟩, by decide +kernel, by decide +kernel, by decide +kernel,
    ⟨serves_of (by decide +kernel), by decide +kernel⟩, by decide +kernel⟩

theorem wit_TheCursorVisitsTheShare :
    (Crane.B = .B ∧ 1920 = 24 * State.reset.settings.split ∧ 1920 = 3840 - 24 * State.reset.settings.split) ∧
      (withCredit .reset).cursorSearch .B = some 1919 ∧ ((withCredit .reset).cell (1920 + 1919)).state = .unverified ∧
      (State.reset.setSched { Scheduler.cold with wing := .held, verifySet := [] }).cursorSearch .A = none := by decide +kernel

theorem wit_TheIntervalGrantsCredits :
    (let s := waitingA .reset
     s.running = true ∧ (s.schedCrane .A).credits < 8 ∧ (s.crane .A).waiting = true ∧ (s.crane .A).orphan = false ∧
      (s.crane .A).active = none) ∧
    (8 ≤ ((withCredit .reset).schedCrane .B).credits ∧ (withCredit .reset).cursorSearch .B = some 1919 ∧
      (withCredit .reset).freeSlot = some 0 ∧ full.freeSlot = none ∧ full.cursorSearch .A = some 0) ∧
    (let o := { plain .verify .queued (.cell 0) none with authority := 1 }
     ((withOrder o).slot 63).order = some o ∧ o.kind = .verify ∧ o.crane = .A) := by decide +kernel

theorem wit_WholdAndWresSetTheWing :
    (State.reset.serves .S ∧ [3, 0].Nodup ∧ (∀ z ∈ [3, 0], z < 4) ∧ (∀ i o, i < 64 → (State.reset.slot i).order = some o → o.kind = .verify) ∧
      (∀ c, (State.reset.crane c).dN8 = 0)) ∧
    ((withOrder queuedB).serves .S ∧ ((withOrder queuedB).slot 63).order = some queuedB ∧ queuedB.kind ≠ .verify) ∧
    ¬[3, 3].Nodup ∧ (∃ z ∈ [4], 4 ≤ z) ∧
    (let o := { queuedB with kind := .verify, dest := none }
     let s := { withOrder o with craneB := { State.reset.craneB with waiting := true } }
     (s.setSched { s.sched with wing := .held, verifySet := [3] }).eligibleOrders .B ≠ [] ∧ (s.crane .B).active = none) := by
  refine ⟨⟨serves_of (by decide +kernel), by decide, by decide, ?_, ?_⟩, ⟨serves_of (by decide +kernel), by decide +kernel⟩, by decide, by decide,
    by decide +kernel⟩
  · intro i o _ h
    have e : (State.reset.slot i).order = none := rfl
    exact absurd (e.symm.trans h) (by simp)
  · intro c
    cases c <;> decide +kernel

/-! ### Fire zones and shutters -/


/-- Reset with shutter 2 in a state, its travel timer and its limit inputs as given. -/
def shuttered (x : ShutterState) (timer : Option Nat) (c o : Bool) : State := State.reset.setShutter 2 ⟨x, timer, c, o⟩

theorem wit_LoopSamplesAreDebounced :
    (let s := State.reset.setLoop 3 ⟨.normal, some .alarm, 2, some 140, some .alarm⟩
     s.running = true ∧ (s.loop 3).candidate = some .alarm ∧ s.settings.debounce ≤ (s.loop 3).count + 1 ∧
      (140 : Nat) ≤ 234 ∧ s.settings.alarmTh ≤ 140) ∧
    (let s := State.reset.setLoop 3 ⟨.normal, some .shortFault, 1, some 20, some .shortFault⟩
     (s.loop 3).candidate = some .shortFault ∧ (s.loop 3).count + 1 < s.settings.debounce ∧ 20 ≤ s.settings.shortTh) ∧
    (State.reset.loop 0).candidate ≠ some .alarm ∧
    (∀ x ∈ [ZoneState.inService, .degraded, .recovering, .clearing], ((zoned 3 x none).zone 3).state = x) := by decide +kernel

theorem wit_AnAlarmClosesTheZone :
    ((3 : Nat) < 4 ∧ ((shuttered .opening none false false).shutter 2).state = .opening ∧ ((shuttered .jammed none false false).shutter 2).state ≠ .opening) ∧
    ((41 : Nat) < 42 ∧ zoneOfSegment 41 = 3 ∧ (ends.seg 41).holder = some .B ∧
      ∀ n, n < 42 → zoneOfSegment n = 1 → (ends.seg n).holder ≠ some .A) ∧
    (∀ o ∈ [queuedB, { queuedB with kind := .verify }, plain .stow .loaded (.crane .A) (some (.cell 3839)), plain .move .queued (.cell 0) none,
      plain .fetch .dispatched (.cell 0) (some (.station .W))], (withOrder o).slot 63 = ⟨255, some o⟩) := by decide +kernel

theorem wit_TheClearanceExpiryCuts :
    (let s := zoned 0 .clearing (some 0)
     s.running = true ∧ (s.zone ((0 : Fin 4) : Nat)).state = .clearing ∧ (s.zone ((0 : Fin 4) : Nat)).timer ≠ none ∧
      ((s.crane .A).touchFirst ≤ 0 ∧ 0 ≤ (s.crane .A).touchLast ∧ zoneOfSegment 0 = 0)) ∧
    (∀ n, (State.reset.crane .B).touchFirst ≤ n → n ≤ (State.reset.crane .B).touchLast → zoneOfSegment n ≠ 0) ∧
    (State.reset.zone ((3 : Fin 4) : Nat)).state ≠ .clearing ∧
    (∀ k, k < 3 → ((3 : Nat) = k ∨ 3 = k + 1) → ((shuttered .closed none true false).shutter k).state = .closed) := by
  refine ⟨by decide +kernel, ?_, by decide +kernel, by decide +kernel⟩
  intro n h1 h2
  have h1 : 41 ≤ n := h1
  have h2 : n ≤ 41 := h2
  obtain rfl : n = 41 := by omega
  decide

theorem wit_ZonesFollowTheirShutters :
    (2 : Nat) < 3 ∧ (let s := (zoned 3 .obstructed none).setShutter 2 ⟨.closing, some 1, false, false⟩
      (s.zone 3).state = .obstructed ∧ (s.shutter 2).state = .closing) ∧
      (let s := (zoned 3 .recovering none).setShutter 2 ⟨.opening, some 1, false, false⟩
       (s.zone 3).state = .recovering ∧ (s.shutter 2).state = .opening) ∧ ((zoned 3 .sealed none).zone 3).state = .sealed := by decide +kernel

theorem wit_ShuttersTravelAndAreOpened :
    (let s := shuttered .closing (some 0) false false
     s.running = true ∧ (s.shutter ((2 : Fin 3) : Nat)).state = .closing ∧ (s.shutter ((2 : Fin 3) : Nat)).timer ≠ none ∧
      true ≠ (s.shutter ((2 : Fin 3) : Nat)).closedLimit) ∧
    (∀ x ∈ [ShutterState.open, .hold, .closed, .opening, .jammed], ((shuttered x none false true).shutter ((2 : Fin 3) : Nat)).state = x ∧
      ((shuttered x none false true).shutter ((2 : Fin 3) : Nat)).openLimit = true) ∧
    ((shuttered .jammed none false false).serves .S ∧ ((shuttered .jammed none false false).shutter 2).state = .jammed) ∧
    (((zoned 3 .sealed none).setShutter 2 ⟨.closed, none, true, false⟩).serves .S ∧ ((zoned 3 .sealed none).zone (2 + 1)).state = .sealed) :=
  ⟨by decide +kernel, by decide +kernel, ⟨serves_of (by decide +kernel), by decide +kernel⟩, ⟨serves_of (by decide +kernel), by decide +kernel⟩⟩

theorem wit_FireResetsAreTaken :
    ((zoned 3 .obstructed none).serves .S ∧ ((zoned 3 .obstructed none).zone 3).state = .obstructed ∧
      ((zoned 3 .obstructed none).loop 3).filtered = .normal) ∧
    (((zoned 3 .sealed none).setLoop 3 { Loop.cold with filtered := .openFault }).serves .S ∧
      (((zoned 3 .sealed none).setLoop 3 { Loop.cold with filtered := .openFault }).loop 3).filtered ≠ .normal) ∧
    (State.reset.serves .S ∧ (State.reset.zone 0).state ≠ .sealed ∧ (State.reset.zone 0).state ≠ .obstructed) ∧ State.reset.running = true :=
  ⟨⟨serves_of (by decide +kernel), by decide +kernel⟩, ⟨serves_of (by decide +kernel), by decide +kernel⟩,
    ⟨serves_of (by decide +kernel), by decide +kernel⟩, by decide +kernel⟩

/-! ### Settings, lines and starts -/

theorem wit_SetTakesTheValue :
    (State.reset.serves .S ∧ paramOf 0 = none ∧ paramOf 72 = none) ∧
    (paramOf 35 = some .interval ∧ 600 = (match paramRange .interval with | none => 65535 | some (lo, hi) => max lo (min 65535 hi))) ∧
    (paramOf 63 = some (.gen 3 .mode) ∧ ¬(4 : Nat) < 4 ∧ paramOf 71 = some (.line 7) ∧ ¬(16 : Nat) < 16) ∧
    ((15, Source.trouble) ∈ lineSourceCodes ∧ 15 ≠ State.reset.param (.line 7) ∧ (0, Source.low) ∈ lineSourceCodes ∧ State.reset.line 7 = .low) ∧
    (∃ c r, Param.crane .A .gain = .crane c r ∧ ((driving true).crane c).permit = true) ∧ ¬(140 : Nat) < State.reset.settings.alarmTh :=
  ⟨⟨serves_of (by decide +kernel), by decide +kernel⟩, by decide +kernel, by decide +kernel, by decide +kernel, ⟨.A, .gain, rfl, by decide +kernel⟩,
    by decide +kernel⟩

theorem wit_SignalsFollowTheState :
    State.reset.running = true ∧ (State.reset.setPower .inReset).running = false ∧
      (∀ x ∈ [Source.high, .gen 3, .notGen 0, .zoneAlarm 3, .anyAlarm, .trouble], (State.reset.setLine 7 x).line 7 = x) ∧
      State.reset.line 0 = .low ∧ (State.reset.gen 3).t + 1 < (State.reset.genSettings 3).period ∧
      (State.reset.port .S).sending = none ∧
      (let s := State.reset.setPort .A { State.reset.portA with sending := some (.ack .keep []) }
       s.running = true ∧ (s.port .A).sending = some (.ack .keep []) ∧ (Message.ack .keep []).bytes[4]?.isSome = true ∧
        (Message.ack .keep []).bytes.length = 5) := by decide +kernel

theorem wit_StartsAreTakenAtTheirCauses :
    (∀ x ∈ [Power.running, .inReset, .powerOnWait, .unpowered], (State.reset.setPower x).power = x) ∧ State.reset.serves .S ∧
    (let s := State.reset.setPort .S { State.reset.portS with stopped := true, sending := some (.ack .rstrt []) }
     s.running = true ∧ (s.port .S).sending = some (.ack .rstrt []) ∧ s.portS.stopped = true) ∧
    (let s := State.reset.setPort .A { State.reset.portA with sending := some (.ack .stat []), slot := some (.ack .keep []), queue := [.zone 0 .sealed] }
     s.running = true ∧ (s.port .A).sending = some (.ack .stat []) ∧ (s.port .A).slot = some (.ack .keep [])) ∧
    (State.reset.port .B).sending = none :=
  ⟨by decide +kernel, serves_of (by decide +kernel), by decide +kernel⟩

theorem wit_AStartSetsEveryBlock :
    ends.tablesWf = true ∧ (∃ w, w = ends.warmStart resetLevels) ∧ ∃ w, w = ends.coldStartAt resetLevels :=
  ⟨by decide +kernel, ⟨_, rfl⟩, _, rfl⟩

/-! ### The wing link -/

/-- Reset with port A's FIFO and partial message. -/
def hearing (m : Option Partial) (fifo : List RxChar) : State :=
  State.reset.setPort .A { State.reset.portA with partialMsg := m, fifo := fifo }

theorem wit_CharactersAreReceivedAndAssembled :
    (let s := hearing none []
     s.running = true ∧ (s.port .A).afterBreak = false ∧ (s.port .A).fifo.length < 64 ∧ (s.port .A).item = none) ∧
    (let s := hearing (some ⟨[0x25, 2, 0], false⟩) (List.replicate 64 ⟨0, false, false, false⟩)
     64 ≤ (s.port .A).fifo.length ∧ (s.port .A).partialMsg ≠ none ∧ (s.port .A).item = none ∧ (s.port .A).fifo ≠ []) ∧
    (let f := cleanFrame 0 false false
     majority f.start = false ∧ frameData f = 0 ∧ majority f.marker = false ∧ majority f.stop = false) ∧
    (let f := { cleanFrame 0x80 true true with start := ⟨true, false, true⟩ }
     majority f.start = true ∧ frameData f ≠ 0) ∧
    ({ State.reset.portA with afterBreak := true } : LinkPort).afterBreak = true := by decide +kernel

theorem wit_ItemsAreMadeAndRefused :
    (let c := crc16 [0x28, 1, 4]
     let s := hearing (some ⟨[0x28, 1, 4, c.extractLsb' 8 8], false⟩) [⟨c.extractLsb' 0 8, false, false, false⟩]
     s.running = true ∧ (s.port .A).item = none ∧ (s.port .A).partialMsg = some ⟨0x28 :: 1 :: ([4] ++ [c.extractLsb' 8 8]), false⟩ ∧
      ([4] : List Byte).length = (1 : Byte).toNat ∧ crc16 (0x28 :: 1 :: [4]) = c.extractLsb' 8 8 ++ c.extractLsb' 0 8) ∧
    (let s := hearing (some ⟨[0x28], true⟩) [⟨49, false, true, false⟩]
     (s.port .A).partialMsg = some ⟨[0x28], true⟩ ∧ 48 < (49 : Byte).toNat) ∧
    ((State.reset.port .A).partialMsg = none ∧ ((driving true).crane .A).keepaliveRunning = true ∧
      ((withItem .C 0x00 []).port .C).item = some (.message 0 []) ∧
      (0 : Byte).toNat ∉ List.range' 1 7 ++ List.range' 0x10 8 ++ List.range' 0x20 9 ++ List.range' 0x30 18 ∧
      (0x41 : Byte).toNat ∈ List.range' 1 7 ++ List.range' 0x10 8 ++ List.range' 0x20 9 ++ List.range' 0x30 18) ∧
    (let q := { State.reset.portB with item := some (.refused 0x28 .check) }
     q.item = some (.refused 0x28 .check) ∧ q.slot = none ∧ q.stopped = false) := by decide +kernel

theorem wit_StatAndRailReadsAnswer :
    (∀ p, State.reset.serves p) ∧ ((41 : Nat) < 42 ∧ ∀ k, k < 3 → 41 ≠ 10 * k + 10 ∧ 41 ≠ 10 * k + 11) ∧
      (∃ k, k < 3 ∧ (31 = 10 * k + 10 ∨ 31 = 10 * k + 11)) ∧ (3 : Nat) < 4 := by
  refine ⟨?_, by decide, by decide, by decide⟩
  intro p
  cases p <;> exact serves_of (by decide +kernel)

theorem wit_OutOfBoundsFieldsAreRefused :
    (∀ p, State.reset.serves p) ∧
      (∀ e ∈ ([(.C, .fetch), (.C, .pick), (.C, .unpick), (.C, .slot), (.C, .place), (.C, .unclaim), (.C, .relbay), (.C, .cancel),
          (.S, .cancel), (.A, .rdord), (.A, .next), (.A, .load), (.A, .done), (.A, .unable), (.A, .tag), (.A, .rsv), (.A, .rel),
          (.S, .frel), (.S, .assign), (.S, .clrsus), (.S, .block), (.S, .unblk), (.S, .quar), (.S, .unquar), (.S, .setcmp),
          (.S, .move)] : List (Port × Kind)), e.1 ∈ kindPorts e.2) ∧
      (4096 ≤ 4096 ∧ 2 ≤ 2 ∧ 16 < (List.replicate 17 0).length ∧ (∃ j ∈ [16], 16 ≤ j) ∧ 3840 ≤ 3840 ∧ 64 ≤ 64 ∧ 42 ≤ 42) := by
  refine ⟨?_, by decide +kernel, by decide +kernel⟩
  intro p
  cases p <;> exact serves_of (by decide +kernel)

end Sys2Proof.Tests
end

/-! # SETCMP replaces the compartment states of a bin (R35) -/

section

namespace Sys2Proof.Machine

/-! ## The list of states -/

/-- The compartment state that a SETCMP entry in range gives. -/
def givenComp (x : Nat) : Comp := if x = 0 then .free else .occupied

theorem setcmpState_of_lt {x : Nat} (h : x < 2) : setcmpState x = some (givenComp x) := by
  match x, h with
  | 0, _ => rfl
  | 1, _ => rfl

theorem setcmpState_of_two_le {x : Nat} (h : 2 ≤ x) : setcmpState x = none := by
  match x, h with
  | _ + 2, _ => rfl

theorem mapM_setcmpState_of_lt {l : List Nat} (h : ∀ x ∈ l, x < 2) : l.mapM setcmpState = some (l.map givenComp) := by
  induction l with
  | nil => rfl
  | cons x xs ih =>
    obtain ⟨hx, hxs⟩ := List.forall_mem_cons.mp h
    simp [List.mapM_cons, setcmpState_of_lt hx, ih hxs]

theorem mapM_setcmpState_of_two_le {l : List Nat} (h : ∃ x ∈ l, 2 ≤ x) : l.mapM setcmpState = none := by
  induction l with
  | nil => simp at h
  | cons x xs ih =>
    simp only [List.mem_cons, exists_eq_or_imp] at h
    obtain hx | hxs := h
    · simp [List.mapM_cons, setcmpState_of_two_le hx]
    · simp [List.mapM_cons, ih hxs]

theorem setcmpStates_of_sound {l : List Nat} (hl : l.length = 16) (h : ∀ x ∈ l, x < 2) :
    setcmpStates l = some (l.map givenComp) := by
  rw [setcmpStates, if_pos hl, mapM_setcmpState_of_lt h]

theorem setcmpStates_of_unsound {l : List Nat} (h : l.length ≠ 16 ∨ ∃ x ∈ l, 2 ≤ x) : setcmpStates l = none := by
  unfold setcmpStates
  split
  · next hl => exact mapM_setcmpState_of_two_le (h.resolve_left (not_not_intro hl))
  · rfl

/-- A compartment is FREE exactly where its entry is 0, so the new free count counts the zeros (R35). -/
theorem countP_free_map_givenComp (l : List Nat) : (l.map givenComp).countP (fun c => c == .free) = l.count 0 := by
  have free_iff_zero : ∀ x, (givenComp x == .free) = (x == 0) := by
    intro x
    by_cases hx : x = 0 <;> simp [givenComp, hx]
  simp only [List.countP_map, List.count, Function.comp_def, free_iff_zero]

/-! ## What the request finds in the bin -/

theorem Bin.hasOpen_iff (r : Bin) : r.hasOpen = true ↔ .pendingPick ∈ r.comps ∨ .claimed ∈ r.comps := by
  simp [Bin.hasOpen, List.any_eq_true, and_or_left, exists_or]

/-- The condition under which SETCMP answers BIN-BUSY (R35). -/
theorem setcmp_busy_iff (r : Bin) :
    (r.order.isSome || r.hasOpen) = true ↔ r.order ≠ none ∨ .pendingPick ∈ r.comps ∨ .claimed ∈ r.comps := by
  rw [Bool.or_eq_true, Option.isSome_iff_ne_none, Bin.hasOpen_iff]

/-! ## The three answers -/

section
variable {s : State} {b : Nat} {l : List Nat}

theorem ownSetcmp_range (hl : setcmpStates l = none) : ownSetcmp (b, l) s = (s, .nak .range none) := by
  unfold ownSetcmp
  split
  · rfl
  · simp only [hl]; rfl

theorem ownSetcmp_binBusy {cs : List Comp} (hb : b < 4096) (hl : setcmpStates l = some cs)
    (busy : ((s.bin b).order.isSome || (s.bin b).hasOpen) = true) : ownSetcmp (b, l) s = (s, .nak .binBusy none) := by
  simp [ownSetcmp, okBin, hb, hl, busy, refuse]

theorem ownSetcmp_ack {cs : List Comp} (hb : b < 4096) (hl : setcmpStates l = some cs)
    (free : ((s.bin b).order.isSome || (s.bin b).hasOpen) = false) :
    ownSetcmp (b, l) s =
      (s.setBin b { s.bin b with comps := cs }, .ack [.num 1 (cs.countP (fun c => c == .free))]) := by
  simp [ownSetcmp, okBin, hb, hl, free, Bin.freeCount]

end

theorem exec_setcmp (p : Port) (b : Nat) (l : List Nat) (s : State) :
    exec (.setcmp p b l) s = serve p .setcmp bodySetcmp (b, l) ownSetcmp false s := rfl

/-- Port S is the port of SETCMP (R197). -/
theorem portRefusal_setcmp : portRefusal .S .setcmp = none := by decide

/-- Settles O15: each clause is one of the three answers of the request's owner, served on port S. -/
theorem setcmpSetsCompartments : Obligations.SetcmpSetsCompartments := by
  intro s b l hs hb
  simp only [exec_setcmp]
  refine ⟨fun hlen hvals hord hpick hclaim => ?_, fun hlen hvals hbusy => ?_, fun hbad => ?_⟩
  · have free : ((s.bin b).order.isSome || (s.bin b).hasOpen) = false := by
      rw [← Bool.not_eq_true, setcmp_busy_iff]
      simp [hord, hpick, hclaim]
    have answer := ownSetcmp_ack hb (setcmpStates_of_sound hlen hvals) free
    rw [countP_free_map_givenComp] at answer
    exact serve_acked hs portRefusal_setcmp answer
  · exact serve_refused hs portRefusal_setcmp
      (ownSetcmp_binBusy hb (setcmpStates_of_sound hlen hvals) ((setcmp_busy_iff _).mpr hbusy))
  · exact serve_refused hs portRefusal_setcmp (ownSetcmp_range (setcmpStates_of_unsound hbad))

end Sys2Proof.Machine

end

/-! # KEEP sets the keepalive of the port's crane (R105) -/

section

namespace Sys2Proof.Machine

/-! ## The table of windows -/

/-- The table of R105: a code, its window, and the keepalive state it leaves. -/
def keepTable : List (Nat × Window × KeepaliveState) :=
  [(0, .stopped, .stopped), (1, .ms250, .running 250), (2, .ms500, .running 500), (3, .ms1000, .running 1000),
    (4, .ms2000, .running 2000)]

theorem windowOf_keepTable : ∀ e ∈ keepTable, windowOf e.1 = some e.2.1 := by decide

theorem keepState_keepTable : ∀ e ∈ keepTable, keepState e.2.1 = e.2.2 := by decide

theorem windowCode_keepTable : ∀ e ∈ keepTable, e.2.1.code = e.1 := by decide

theorem keepaliveCode_keepTable : ∀ e ∈ keepTable, e.2.2.code = if e.1 = 0 then 0 else 1 := by decide

theorem windowOf_of_five_le {code : Nat} (h : 5 ≤ code) : windowOf code = none := by
  match code, h with
  | _ + 5, _ => rfl

/-! ## The keepalive and the permit -/

theorem CraneRec.keepaliveRunning_eq_code (r : CraneRec) : r.keepaliveRunning = decide (r.keepalive.code = 1) := by
  unfold CraneRec.keepaliveRunning
  cases r.keepalive <;> rfl

/-- The permit's trip condition, reference and holding are those from before, as a window and a keepalive state touch none
of them (R104, R105). -/
theorem State.setKeepalive_eq (s : State) (c : Crane) (w : Window) (k : KeepaliveState) :
    s.setKeepalive c w k =
      s.setCrane c
        { s.crane c with
          window := w
          keepalive := k
          permit := decide (k.code = 1) && (s.crane c).tripAllows && ((s.crane c).ref.isSome || s.holds c (endSegment c)) } := by
  simp [State.setKeepalive, State.refreshPermit, State.permitHolds, CraneRec.keepaliveRunning_eq_code, CraneRec.tripAllows,
    State.holds, Bool.and_comm]

/-! ## The answers of the owner and of the port -/

theorem ownKeep_ack {p : Port} {c : Crane} {code : Nat} {w : Window} (s : State) (hc : craneOfPort p = some c)
    (hw : windowOf code = some w) :
    ownKeep p code s = (s.setKeepalive c w (keepState w), .ack [.named w.code, .named (keepState w).code]) := by
  simp [ownKeep, hw, onCrane, hc]

theorem ownKeep_range {p : Port} {code : Nat} (s : State) (h : windowOf code = none) :
    ownKeep p code s = (s, .nak .range none) := by
  simp [ownKeep, h, refuse]

/-- KEEP is taken on the crane ports (R197). -/
theorem portRefusal_keep_of_crane {p : Port} {c : Crane} (h : craneOfPort p = some c) : portRefusal p .keep = none := by
  cases p with
  | C | S => simp [craneOfPort] at h
  | A | B => rfl

/-- KEEP is refused on the ports that no crane's controller is attached to (R197 step 3). -/
theorem portRefusal_keep_of_no_crane {p : Port} (h : craneOfPort p = none) :
    ∃ r, (r = .role ∨ r = .authority) ∧ portRefusal p .keep = some r := by
  cases p with
  | C => exact ⟨.authority, .inr rfl, rfl⟩
  | S => exact ⟨.role, .inl rfl, rfl⟩
  | A | B => simp [craneOfPort] at h

/-- A request whose kind the port does not take gets that reason, whatever its owner would answer (R197 step 3). -/
theorem serve_portRefused {α : Type} {p : Port} {k : Kind} {read : List Byte → Except Reason α} {args : α}
    {owner : α → State → State × Reply} {s : State} {al : Bool} {r : Reason} (h : s.serves p)
    (hp : portRefusal p k = some r) : serve p k read args owner al s = .next (refused s p k r none) := by
  have hanswer : answer p k (.ok args) owner s = (s, .nak r none) := by simp [answer, hp, refuse]
  rw [serve_direct h, hanswer, conclude_nak]
  rfl

theorem exec_keep (p : Port) (code : Nat) (s : State) :
    exec (.keep p code) s = serve p .keep (bodyNum 1) code (ownKeep p) false s := rfl

/-- A code of the table, on the port of crane `c`. -/
theorem exec_keep_of_mem {s : State} {p : Port} {c : Crane} {code : Nat} {w : Window} {k : KeepaliveState} (h : s.serves p)
    (hc : craneOfPort p = some c) (hrow : (code, w, k) ∈ keepTable) :
    exec (.keep p code) s = .next (acked s p .keep [.named code, .named k.code] (s.setKeepalive c w k)) := by
  have hwindow : windowOf code = some w := windowOf_keepTable _ hrow
  have hstate : keepState w = k := keepState_keepTable _ hrow
  have hcode : w.code = code := windowCode_keepTable _ hrow
  have hanswer := ownKeep_ack s hc hwindow
  rw [hstate, hcode] at hanswer
  exact serve_acked h (portRefusal_keep_of_crane hc) hanswer

/-- Settles O33: a code of the table is answered by its row, any other is out of range, and the ports without a crane refuse
the kind. -/
theorem keepSetsTheKeepalive : Obligations.KeepSetsTheKeepalive := by
  intro s p code hs
  refine ⟨fun c w k hc hrow => ?_, fun c hc hcode => ?_, fun hnone => ?_⟩
  · have hkcode : k.code = if code = 0 then 0 else 1 := keepaliveCode_keepTable _ hrow
    have hrunning : decide (k.code = 1) = decide (code ≠ 0) := by simp [hkcode]
    rw [exec_keep_of_mem hs hc hrow, State.setKeepalive_eq, hrunning, hkcode]
  · exact serve_refused hs (portRefusal_keep_of_crane hc) (ownKeep_range s (windowOf_of_five_le hcode))
  · obtain ⟨r, hr, hrefused⟩ := portRefusal_keep_of_no_crane hnone
    exact ⟨r, hr, serve_portRefused hs hrefused⟩

end Sys2Proof.Machine

end

/-! # Every step keeps the rail safe (R113, R114, R119) -/

section

namespace Sys2Proof.Machine

/-! ## The moves that write one crane record alone -/

theorem State.setCrane_self (s : State) (c : Crane) : s.setCrane c (s.crane c) = s := by cases c <;> rfl

theorem refreshPermit_eq (s : State) (c : Crane) (r : CraneRec) :
    (s.setCrane c r).refreshPermit c = s.setCrane c { r with permit := (s.setCrane c r).permitHolds c } := by
  simp [State.refreshPermit]

theorem restartKeepalive_eq (s : State) (c : Crane) :
    s.restartKeepalive c =
      s.setCrane c
        { s.crane c with
          keepalive :=
            if (s.crane c).keepaliveRunning then .running (s.crane c).window.ms else (s.crane c).keepalive } := by
  unfold State.restartKeepalive
  split
  · rfl
  · exact (s.setCrane_self c).symm

/-- The crane record with a new envelope and its touched segments (R99 to R101). -/
def State.envelopeRec (s : State) (c : Crane) : CraneRec :=
  { s.crane c with
    envLo := (s.envelope c).1, envHi := (s.envelope c).2
    touchFirst := (s.envelope c).1 / 2400, touchLast := (s.envelope c).2 / 2400 }

/-- The envelope check of a sample trips the crane, or leaves its record with the new envelope (R101 step 2). -/
theorem takeEnvelope_cases (s : State) (c : Crane) :
    (s.takeEnvelope c = s.setCrane c (s.envelopeRec c) ∧
        ((s.setCrane c (s.envelopeRec c)).touchedHeld c = true ∨ (s.envelopeRec c).hasTrip .envelope = true)) ∨
      s.takeEnvelope c = (s.setCrane c ((s.envelopeRec c).withTrip .envelope)).refreshPermit c := by
  have hsample : s.sampleEnvelope c = s.setCrane c (s.envelopeRec c) := rfl
  unfold State.takeEnvelope
  simp only [hsample, State.setCrane_crane_same, State.setCrane_setCrane]
  split
  · next h => exact .inl ⟨rfl, by simpa using h⟩
  · exact .inr rfl

theorem takeEnvelope_eq (s : State) (c : Crane) : ∃ r, s.takeEnvelope c = s.setCrane c r := by
  rcases takeEnvelope_cases s c with ⟨h, -⟩ | h
  · exact ⟨_, h⟩
  · exact ⟨_, h.trans (refreshPermit_eq s c _)⟩

/-- A changed parameter reaches neither the rail nor the order of the cranes' trips: at most a crane's index phase (R203). -/
theorem paramMove_segs (s : State) (q : Param) (v : Nat) : ((s.putParam q v).paramEffect q).segs = s.segs := by
  obtain ⟨st, ls, h⟩ := putParam_eq s q v
  cases q with
  | crane c r => cases r <;> simp [State.paramEffect, State.dropPhase, h]
  | _ => simp [State.paramEffect, State.trimCursor, h]

/-! ## The rail -/

/-- The rail's safety is read from the segments alone. -/
theorem RailSound.of_seg {s t : State} (h : RailSound s)
    (hfree : ∀ n, (t.seg n).sealState = .sealed → (t.seg n).holder = none)
    (hhold : ∀ n, (t.seg n).holder = (s.seg n).holder) : RailSound t where
  sealedFree := hfree
  onRail n := by rw [hhold]; exact h.onRail n
  oneRun c a m b := by simpa only [State.holds, hhold] using h.oneRun c a m b
  inOrder a b := by simpa only [State.holds, hhold] using h.inOrder a b

theorem RailSound.congr {s t : State} (h : RailSound s) (e : t.segs = s.segs) : RailSound t := by
  have hseg : ∀ n, t.seg n = s.seg n := fun n => by simp [State.seg, e]
  exact h.of_seg (fun n => by rw [hseg]; exact h.sealedFree n) (fun n => by rw [hseg])

/-- On a safe rail a holding is every segment between its ends. -/
theorem RailSound.holds_iff {s : State} (h : RailSound s) {c : Crane} {a b : Nat} (he : s.holdingEnds c = some (a, b)) (n : Nat) :
    s.holds c n = true ↔ a ≤ n ∧ n ≤ b := by
  obtain ⟨⟨-, ha⟩, ⟨-, hb⟩, hin⟩ := holdingEnds_some he
  constructor
  · intro hn
    exact hin n (h.onRail n (by simp_all [State.holds])) hn
  · rintro ⟨h1, h2⟩
    exact h.oneRun c a n b ha hb h1 h2

theorem RailSound.holds_none {s : State} (h : RailSound s) {c : Crane} (he : s.holdingEnds c = none) (n : Nat) :
    s.holds c n = false := by
  rcases Nat.lt_or_ge n 42 with hn | hn
  · exact (holdingEnds_none s c).mp he n hn
  · by_contra hc
    have := h.onRail n (by simp_all [State.holds])
    omega

theorem holds_eq_true (s : State) (c : Crane) (n : Nat) : s.holds c n = true ↔ (s.seg n).holder = some c := by
  simp [State.holds]

theorem ne_otherCrane_iff (x c : Crane) : x ≠ otherCrane c ↔ x = c := by cases x <;> cases c <;> simp [otherCrane]

theorem otherCrane_otherCrane (c : Crane) : otherCrane (otherCrane c) = c := by cases c <;> rfl

theorem otherCrane_ne (c : Crane) : otherCrane c ≠ c := by cases c <;> simp [otherCrane]

/-- What the checks of R115 leave of the segments asked for: each is X's own, or free and OPEN. -/
theorem rsv_checked_seg {s : State} {c : Crane} {lo hi : Nat} (h1 : s.rsvConflict c lo hi = none)
    (h2 : s.rsvSealed c lo hi = none) {n : Nat} (hlo : lo ≤ n) (hhi : n ≤ hi) :
    (s.seg n).holder = some c ∨ (s.seg n).holder = none ∧ (s.seg n).sealState = .open := by
  have hn : n ∈ upTo lo hi := (mem_upTo ..).mpr ⟨hlo, hhi⟩
  have e1 := List.find?_eq_none.mp h1 n hn
  have e2 := List.find?_eq_none.mp h2 n hn
  simp only [holds_eq_true, Bool.and_eq_true, Bool.not_eq_true', not_and] at e1 e2
  cases hh : (s.seg n).holder with
  | none => exact .inr ⟨rfl, by simpa [State.holds, hh] using e2⟩
  | some x =>
    have : x = c := (ne_otherCrane_iff x c).mp (fun hx => e1 (by rw [hh, hx]))
    exact .inl (by rw [this])

/-- A granted RSV: who holds what afterwards (R116). -/
theorem grant_holder {s : State} {c : Crane} {lo hi : Nat} (h1 : s.rsvConflict c lo hi = none)
    (h2 : s.rsvSealed c lo hi = none) (x : Crane) (n : Nat) :
    (s.grant c lo hi).holds x n = true ↔ s.holds x n = true ∨ x = c ∧ lo ≤ n ∧ n ≤ hi := by
  simp only [holds_eq_true, grant_seg]
  by_cases hin : lo ≤ n ∧ n ≤ hi
  · rw [if_pos hin]
    rcases rsv_checked_seg h1 h2 hin.1 hin.2 with hc | ⟨hc, -⟩
    · simp [grantedSeg, hc, hin, eq_comm]
    · simp [grantedSeg, hc, hin, eq_comm]
  · simp [hin]

theorem RailSound.grant {s : State} (h : RailSound s) {c : Crane} {lo hi : Nat} (hhi : hi < 42)
    (h1 : s.rsvConflict c lo hi = none) (h2 : s.rsvSealed c lo hi = none) (h3 : s.rsvOneRun c lo hi = true)
    (h4 : s.rsvOrder c (s.rsvUnion c lo hi).1 (s.rsvUnion c lo hi).2 = none) : RailSound (s.grant c lo hi) where
  sealedFree n := by
    rw [grant_seg]
    split
    · next hin =>
      rcases rsv_checked_seg h1 h2 hin.1 hin.2 with hc | ⟨hc, ho⟩
      · have := h.sealedFree n
        simp_all [grantedSeg]
      · simp [grantedSeg, hc, ho]
    · exact h.sealedFree n
  onRail n hn := by
    obtain ⟨x, hx⟩ := Option.isSome_iff_exists.mp hn
    rcases (grant_holder h1 h2 x n).mp ((holds_eq_true ..).mpr hx) with hs | ⟨-, -, hle⟩
    · exact h.onRail n (by rw [(holds_eq_true ..).mp hs]; rfl)
    · omega
  oneRun x a m b := by
    simp only [grant_holder h1 h2]
    unfold State.rsvOneRun at h3
    cases he : s.holdingEnds c with
    | none =>
      have hnone := h.holds_none he
      rintro (ha | ⟨hx, ha⟩) (hb | ⟨hx', hb⟩) hm1 hm2
      · exact .inl (h.oneRun x a m b ha hb hm1 hm2)
      · simp [hx', hnone] at ha
      · simp [hx, hnone] at hb
      · exact .inr ⟨hx, by omega, by omega⟩
    | some e =>
      obtain ⟨p, q⟩ := e
      have hends := h.holds_iff he
      simp only [he, decide_eq_true_eq] at h3
      rintro (ha | ⟨hx, ha⟩) (hb | ⟨hx', hb⟩) hm1 hm2
      · exact .inl (h.oneRun x a m b ha hb hm1 hm2)
      all_goals
        subst x
        simp only [hends, true_and] at *
        omega
  inOrder a b := by
    simp only [grant_holder h1 h2]
    have hu1 : (s.rsvUnion c lo hi).1 ≤ lo := by unfold State.rsvUnion; split <;> simp
    have hu2 : hi ≤ (s.rsvUnion c lo hi).2 := by unfold State.rsvUnion; split <;> simp
    unfold State.rsvOrder at h4
    rintro (ha | ⟨rfl, ha⟩) (hb | ⟨hB, hb⟩)
    · exact h.inOrder a b ha hb
    · subst hB
      cases he : s.holdingEnds .A with
      | none => simp [h.holds_none he] at ha
      | some e =>
        obtain ⟨p, q⟩ := e
        have hends := (h.holds_iff he a).mp ha
        simp only [otherCrane, he, ite_eq_left_iff, reduceCtorEq, imp_false, not_not] at h4
        omega
    · cases he : s.holdingEnds .B with
      | none => simp [h.holds_none he] at hb
      | some e =>
        obtain ⟨p, q⟩ := e
        have hends := (h.holds_iff he b).mp hb
        simp only [otherCrane, he, ite_eq_left_iff, reduceCtorEq, imp_false, not_not] at h4
        omega
    · cases hB

/-- A release of owned segments: who holds what afterwards (R119). -/
theorem release_holder {s : State} {c : Crane} {lo hi : Nat} (h1 : s.notOwned c lo hi = none) (x : Crane) (n : Nat) :
    (s.release c lo hi).holds x n = true ↔ s.holds x n = true ∧ ¬(x = c ∧ lo ≤ n ∧ n ≤ hi) := by
  simp only [holds_eq_true, release_seg]
  by_cases hin : lo ≤ n ∧ n ≤ hi
  · have hc : s.holds c n = true := by simpa using List.find?_eq_none.mp h1 n ((mem_upTo ..).mpr hin)
    rw [holds_eq_true] at hc
    simp [hin, freedSeg, hc, eq_comm]
  · simp [hin]

theorem RailSound.release {s : State} (h : RailSound s) {c : Crane} {lo hi : Nat} (h1 : s.notOwned c lo hi = none)
    (h2 : s.leavesRun c lo hi = true) : RailSound (s.release c lo hi) where
  sealedFree n := by
    rw [release_seg]
    split
    · simp [freedSeg]
    · exact h.sealedFree n
  onRail n hn := by
    obtain ⟨x, hx⟩ := Option.isSome_iff_exists.mp hn
    have hs := ((release_holder h1 x n).mp ((holds_eq_true ..).mpr hx)).1
    exact h.onRail n (by rw [(holds_eq_true ..).mp hs]; rfl)
  oneRun x a m b := by
    simp only [release_holder h1]
    rintro ⟨ha, ha'⟩ ⟨hb, hb'⟩ hm1 hm2
    refine ⟨h.oneRun x a m b ha hb hm1 hm2, ?_⟩
    rintro ⟨rfl, hm3, hm4⟩
    unfold State.leavesRun at h2
    cases he : s.holdingEnds x with
    | none => simp [he] at h2
    | some e =>
      obtain ⟨p, q⟩ := e
      simp only [he, decide_eq_true_eq] at h2
      rw [h.holds_iff he] at ha hb
      simp only [true_and, not_and, not_le] at ha' hb'
      omega
  inOrder a b := by
    simp only [release_holder h1]
    rintro ⟨ha, -⟩ ⟨hb, -⟩
    exact h.inOrder a b ha hb

/-- On a safe rail unsealing frees nobody's segment: a SEALED one is free already (R125). -/
theorem RailSound.unseal_holder {s : State} (h : RailSound s) (z n : Nat) :
    ((s.unsealZone z).seg n).holder = (s.seg n).holder := by
  rw [unsealZone_seg]
  split
  · by_cases hs : (s.seg n).sealState = .sealed
    · simp [openedSeg, hs, h.sealedFree n hs]
    · simp [openedSeg, hs]
  · rfl

theorem sealZone_holder (s : State) (z n : Nat) : ((s.sealZone z).seg n).holder = (s.seg n).holder := by
  rw [sealZone_seg]
  split <;> rfl

theorem RailSound.free (t : State) (h : t.segs = []) : RailSound t := by
  have hseg : ∀ n, t.seg n = ⟨none, .open⟩ := fun n => by simp [State.seg, h, tableGet, Segment.cold]
  constructor <;> simp [State.holds, hseg]

theorem Move.keeps_railSound {s t : State} (m : Move s t) (h : RailSound s) : RailSound t := by
  cases m with
  | rsv c lo hi hhi =>
    rcases rsv_cases s c lo hi with ⟨r, d, e⟩ | ⟨-, h1, h2, h3, h4, -, e⟩
    · rwa [e]
    · rw [e]
      exact h.grant hhi h1 h2 h3 h4
  | rel c lo hi hhi =>
    rcases rel_cases s c lo hi with ⟨r, d, e⟩ | ⟨-, h1, h2, -, -, e⟩
    · rwa [e]
    · rw [e]
      exact h.release h1 h2
  | frel c lo hi hhi =>
    rcases frel_cases s c lo hi with ⟨r, d, e⟩ | ⟨-, -, h1, h2, -, e⟩
    · rwa [e]
    · rw [e]
      exact h.release h1 h2
  | sealZone z =>
    refine h.of_seg (fun n => ?_) (sealZone_holder s z)
    rw [sealZone_seg]
    split
    · unfold closedSeg
      split <;> simp_all
    · exact h.sealedFree n
  | unsealZone z =>
    refine h.of_seg (fun n => ?_) (h.unseal_holder z)
    rw [unsealZone_seg]
    split
    · simp [openedSeg]
    · exact h.sealedFree n
  | param q v => exact h.congr (paramMove_segs s q _)
  | warm l => exact .free _ rfl
  | cold l => exact .free _ rfl
  | restart c => exact h.congr (by simp [restartKeepalive_eq])
  | envelope c =>
    obtain ⟨r, e⟩ := takeEnvelope_eq s c
    exact h.congr (by simp [e])
  | trip | unreference | home | keepalive | creep | clearTrip | refresh =>
    exact h.congr (by
      simp [State.refreshPermit, State.unreference, State.captureHome, State.setKeepalive, State.setCreep, State.clearTrip])
  | bin | cell | bay | slot | counter | sched | loop | zone | shutter | manual | gen | crane | port | power | coldStart =>
    exact h.congr (by simp)
  | elapse => exact h.congr rfl

/-- Settles O4: the segments change by RSV, the releases, sealing, unsealing and a start alone, and each keeps the rail safe. -/
theorem stepKeepsTheRailSafe : Obligations.StepKeepsTheRailSafe := by
  intro s t hs e
  exact step_keeps (P := RailSound) (fun u l h => h.congr rfl) (fun u v m h => m.keeps_railSound h) hs e

end Sys2Proof.Machine

end

/-! # Every step keeps the drive permits and the last envelopes (R101, R102, R104) -/

section

namespace Sys2Proof.Machine

/-! ## What a move reads and leaves of a crane record -/

/-- What a drive permit and its conditions read of the crane record (R104). -/
structure SameDrive (a b : CraneRec) : Prop where
  permit : b.permit = a.permit
  allows : b.tripAllows = a.tripAllows
  running : b.keepaliveRunning = a.keepaliveRunning
  ref : b.ref.isSome = a.ref.isSome

theorem SameDrive.of_eq {a b : CraneRec} (h : b = a) : SameDrive a b := by subst h; exact ⟨rfl, rfl, rfl, rfl⟩

theorem SamePermit.sameDrive {a b : CraneRec} (h : SamePermit a b) : SameDrive a b where
  permit := h.permit
  allows := by simp [CraneRec.tripAllows, h.latched, h.causes, h.creep]
  running := by simp [CraneRec.keepaliveRunning, h.keepalive]
  ref := h.ref

/-- The trip record and the last touched segments stand (R101, R102). -/
structure SameTrip (a b : CraneRec) : Prop where
  latched : b.tripLatched = a.tripLatched
  first : b.tripFirst = a.tripFirst
  causes : b.tripCauses = a.tripCauses
  touchFirst : b.touchFirst = a.touchFirst
  touchLast : b.touchLast = a.touchLast

theorem SameTrip.of_eq {a b : CraneRec} (h : b = a) : SameTrip a b := by subst h; exact ⟨rfl, rfl, rfl, rfl, rfl⟩

theorem SamePermit.sameTrip {a b : CraneRec} (h : SamePermit a b) : SameTrip a b :=
  ⟨h.latched, h.first, h.causes, h.touchFirst, h.touchLast⟩

theorem SameTrip.setCrane {s : State} {c : Crane} {r : CraneRec} (h : SameTrip (s.crane c) r) (x : Crane) :
    SameTrip (s.crane x) ((s.setCrane c r).crane x) := by
  rw [State.setCrane_crane]
  split
  · next e => rw [e]; exact h
  · exact .of_eq rfl

theorem paramMove_crane (s : State) (q : Param) (v : Nat) (x : Crane) :
    ∃ f, ((s.putParam q v).paramEffect q).crane x = { s.crane x with ref := (s.crane x).ref.map f } := by
  obtain ⟨st, ls, h⟩ := putParam_eq s q v
  have hx : (s.putParam q v).crane x = s.crane x := by rw [h]; cases x <;> rfl
  have hid : s.crane x = { s.crane x with ref := (s.crane x).ref.map id } := by simp
  cases q with
  | crane c r =>
    cases r with
    | cpr =>
      simp only [State.paramEffect, State.dropPhase, State.setCrane_crane]
      split
      · next e =>
        subst e
        exact ⟨_, by rw [hx]⟩
      · exact ⟨id, hx.trans hid⟩
    | _ => exact ⟨id, hx.trans hid⟩
  | _ => exact ⟨id, by simpa [State.paramEffect, State.trimCursor] using hx⟩

theorem grant_crane (s : State) (c : Crane) (lo hi : Nat) :
    s.grant c lo hi = ((upTo lo hi).foldl (fun s n => s.grantSeg c n) s).refreshPermit c ∧
      ∀ x, ((upTo lo hi).foldl (fun s n => s.grantSeg c n) s).crane x = s.crane x :=
  ⟨rfl, fun x => foldl_leaves (fun u => u.crane x) (fun u n => by unfold State.grantSeg; split <;> simp) _ s⟩

theorem release_crane (s : State) (c : Crane) (lo hi : Nat) :
    s.release c lo hi = ((upTo lo hi).foldl (fun s n => s.releaseSeg n) s).refreshPermit c ∧
      ∀ x, ((upTo lo hi).foldl (fun s n => s.releaseSeg n) s).crane x = s.crane x :=
  ⟨rfl, fun x => foldl_leaves (fun u => u.crane x) (fun u n => by simp [State.releaseSeg]) _ s⟩

theorem sealZone_crane (s : State) (z : Nat) (x : Crane) : (s.sealZone z).crane x = s.crane x :=
  foldl_leaves (fun u => u.crane x) (fun u n => by simp [State.sealSeg]) _ s

theorem unsealZone_crane (s : State) (z : Nat) (x : Crane) : (s.unsealZone z).crane x = s.crane x :=
  foldl_leaves (fun u => u.crane x) (fun u n => by simp [State.unsealSeg]) _ s

theorem holds_congr {s t : State} (h : t.segs = s.segs) (x : Crane) (n : Nat) : t.holds x n = s.holds x n := by
  simp [State.holds, State.seg, h]

theorem keepaliveRunning_restart (r : CraneRec) (ms : Nat) :
    ({ r with keepalive := if r.keepaliveRunning then .running ms else r.keepalive } : CraneRec).keepaliveRunning =
      r.keepaliveRunning := by
  cases h : r.keepalive <;> simp [CraneRec.keepaliveRunning, h]

theorem tick_sameDrive (r : CraneRec) : SameDrive r r.tick :=
  ⟨rfl, rfl, by cases h : r.keepalive <;> simp [CraneRec.tick, CraneRec.keepaliveRunning, KeepaliveState.tick, h], rfl⟩

theorem elapse_crane (s : State) (x : Crane) : s.elapse.crane x = (s.crane x).tick := by cases x <;> rfl

/-- Every crane at a start: tripped for START, its permit off (R112). -/
theorem warmStart_crane (s : State) (l : StartLevels) (x : Crane) :
    ∃ m lo hi seg k i, (s.warmStart l).crane x = .atStart m lo hi seg k i := by
  cases x <;> exact ⟨_, _, _, _, _, _, rfl⟩

theorem coldStartAt_crane (s : State) (l : StartLevels) (x : Crane) :
    ∃ m lo hi seg k i, (s.coldStartAt l).crane x = .atStart m lo hi seg k i := by
  cases x <;> exact ⟨_, _, _, _, _, _, rfl⟩

/-! ## The permits (R104) -/

/-- Permits whose inputs stand, stand. -/
theorem PermitSound.same {s t : State} (h : PermitSound s) (hd : ∀ x, SameDrive (s.crane x) (t.crane x))
    (hh : ∀ x n, t.holds x n = s.holds x n) : PermitSound t := by
  intro x
  obtain ⟨hp, ha, hr, hf⟩ := hd x
  rw [hp, h x]
  simp [State.permitHolds, ha, hr, hf, hh]

/-- One crane's permit evaluated again, the inputs of the other standing. -/
theorem PermitSound.refresh {s u : State} (h : PermitSound s) (c : Crane) (hd : ∀ x, x ≠ c → u.crane x = s.crane x)
    (hh : ∀ x n, x ≠ c → u.holds x n = s.holds x n) : PermitSound (u.refreshPermit c) := by
  intro x
  unfold State.refreshPermit
  by_cases e : x = c
  · subst e
    simp [State.permitHolds, State.holds, CraneRec.tripAllows, CraneRec.keepaliveRunning]
  · have hx := h x
    rw [State.permitHolds, ← hh x _ e, ← hd x e] at hx
    simpa [State.permitHolds, State.holds, State.setCrane_crane, e] using hx

theorem PermitSound.setRefresh {s : State} (h : PermitSound s) (c : Crane) (r : CraneRec) :
    PermitSound ((s.setCrane c r).refreshPermit c) :=
  h.refresh c (fun x hx => State.setCrane_crane_ne s c x r hx) (fun x n _ => holds_congr (by simp) x n)

theorem PermitSound.setCrane {s : State} (h : PermitSound s) {c : Crane} {r : CraneRec} (hr : SameDrive (s.crane c) r) :
    PermitSound (s.setCrane c r) := by
  refine h.same (fun x => ?_) (fun x n => holds_congr (by simp) x n)
  rw [State.setCrane_crane]
  split
  · next e => rw [e]; exact hr
  · exact .of_eq rfl

theorem PermitSound.congr {s t : State} (h : PermitSound s) (hc : ∀ x, t.crane x = s.crane x) (hh : t.segs = s.segs) :
    PermitSound t :=
  h.same (fun x => .of_eq (hc x)) (holds_congr hh)

theorem atStart_permit {r : CraneRec} (h : ∃ m lo hi seg k i, r = .atStart m lo hi seg k i) :
    r.permit = false ∧ r.tripAllows = false := by
  obtain ⟨m, lo, hi, seg, k, i, rfl⟩ := h
  exact ⟨rfl, rfl⟩

theorem PermitSound.atStart {t : State} (h : ∀ x, ∃ m lo hi seg k i, t.crane x = .atStart m lo hi seg k i) :
    PermitSound t := by
  intro x
  obtain ⟨hp, ha⟩ := atStart_permit (h x)
  simp [State.permitHolds, hp, ha]

/-- A grant reaches the holding of its crane alone. -/
theorem grant_holds_ne {s : State} {c x : Crane} (hx : x ≠ c) {lo hi : Nat} (h1 : s.rsvConflict c lo hi = none)
    (h2 : s.rsvSealed c lo hi = none) (n : Nat) : (s.grant c lo hi).holds x n = s.holds x n := by
  rw [Bool.eq_iff_iff, grant_holder h1 h2]
  simp [hx]

/-- A release reaches the holding of its crane alone. -/
theorem release_holds_ne {s : State} {c x : Crane} (hx : x ≠ c) {lo hi : Nat} (h1 : s.notOwned c lo hi = none) (n : Nat) :
    (s.release c lo hi).holds x n = s.holds x n := by
  rw [Bool.eq_iff_iff, release_holder h1]
  simp [hx]

theorem PermitSound.grant {s : State} (h : PermitSound s) {c : Crane} {lo hi : Nat} (h1 : s.rsvConflict c lo hi = none)
    (h2 : s.rsvSealed c lo hi = none) : PermitSound (s.grant c lo hi) := by
  obtain ⟨e, hc⟩ := grant_crane s c lo hi
  rw [e]
  refine h.refresh c (fun x _ => hc x) (fun x n hx => ?_)
  rw [← grant_holds_ne hx h1 h2, e]
  simp [State.refreshPermit, State.holds]

theorem PermitSound.release {s : State} (h : PermitSound s) {c : Crane} {lo hi : Nat} (h1 : s.notOwned c lo hi = none) :
    PermitSound (s.release c lo hi) := by
  obtain ⟨e, hc⟩ := release_crane s c lo hi
  rw [e]
  refine h.refresh c (fun x _ => hc x) (fun x n hx => ?_)
  rw [← release_holds_ne hx h1, e]
  simp [State.refreshPermit, State.holds]

theorem Move.keeps_permitSound {s t : State} (m : Move s t) (hr : RailSound s) (h : PermitSound s) : PermitSound t := by
  cases m with
  | rsv c lo hi hhi =>
    rcases rsv_cases s c lo hi with ⟨r, d, e⟩ | ⟨-, h1, h2, -, -, -, e⟩ <;> rw [e]
    · exact h
    · exact h.grant h1 h2
  | rel c lo hi hhi =>
    rcases rel_cases s c lo hi with ⟨r, d, e⟩ | ⟨-, h1, -, -, -, e⟩ <;> rw [e]
    · exact h
    · exact h.release h1
  | frel c lo hi hhi =>
    rcases frel_cases s c lo hi with ⟨r, d, e⟩ | ⟨-, -, h1, -, -, e⟩ <;> rw [e]
    · exact h
    · exact h.release h1
  | sealZone z =>
    exact h.same (fun x => .of_eq (sealZone_crane s z x)) (fun x n => by simp [State.holds, sealZone_holder])
  | unsealZone z =>
    exact h.same (fun x => .of_eq (unsealZone_crane s z x)) (fun x n => by simp [State.holds, hr.unseal_holder])
  | param q v =>
    refine h.same (fun x => ?_) (holds_congr (paramMove_segs s q _))
    obtain ⟨f, e⟩ := paramMove_crane s q (valueTaken q v) x
    exact ⟨by rw [e], by rw [e]; rfl, by rw [e]; rfl, by rw [e]; simp⟩
  | warm l => exact .atStart (warmStart_crane s l)
  | cold l => exact .atStart (coldStartAt_crane s l)
  | restart c =>
    rw [restartKeepalive_eq]
    exact h.setCrane ⟨rfl, rfl, keepaliveRunning_restart _ _, rfl⟩
  | envelope c =>
    rcases takeEnvelope_cases s c with ⟨e, -⟩ | e <;> rw [e]
    · exact h.setCrane ⟨rfl, rfl, rfl, rfl⟩
    · exact h.setRefresh c _
  | crane c r hs => exact h.setCrane hs.sameDrive
  | trip | unreference | home | keepalive | creep | clearTrip => exact h.setRefresh _ _
  | refresh c => exact h.refresh c (fun _ _ => rfl) (fun _ _ _ => rfl)
  | elapse =>
    refine h.same (fun x => ?_) (fun x n => rfl)
    rw [elapse_crane]
    exact tick_sameDrive _
  | bin | cell | bay | slot | counter | sched | loop | zone | shutter | manual | gen | port | power | coldStart =>
    exact h.congr (by simp) (by simp)

/-- Settles O5: a move that reaches an input of a crane's permit evaluates that permit again, and on a safe rail no move reaches
the other crane's holding. -/
theorem stepKeepsPermits : Obligations.StepKeepsPermits := by
  intro s t hr hp e
  have hboth := step_keeps (P := fun u => RailSound u ∧ PermitSound u)
    (fun u l h => ⟨h.1.congr rfl, h.2.congr (fun x => by cases x <;> rfl) rfl⟩)
    (fun u v m h => ⟨m.keeps_railSound h.1, m.keeps_permitSound h.1 h.2⟩) ⟨hr, hp⟩ e
  exact hboth.2

/-! ## The trip records (R102) -/

theorem mem_addCause (l : List TripCause) (x y : TripCause) : y ∈ addCause l x ↔ y = x ∨ y ∈ l := by
  induction l with
  | nil => simp [addCause]
  | cons a l ih =>
    unfold addCause
    split
    · next e => subst e; simp
    · split
      · simp
      · simp only [List.mem_cons, ih]
        tauto

theorem TripCause.code_injective {x y : TripCause} (h : x.code = y.code) : x = y := by
  cases x <;> cases y <;> first | rfl | exact absurd h (by decide)

theorem addCause_rising {l : List TripCause} (h : l.Pairwise (fun a b => a.code < b.code)) (x : TripCause) :
    (addCause l x).Pairwise (fun a b => a.code < b.code) := by
  induction l with
  | nil => simp [addCause]
  | cons a l ih =>
    obtain ⟨ha, hl⟩ := List.pairwise_cons.mp h
    unfold addCause
    split
    · exact h
    · next hne =>
      split
      · next hlt =>
        refine List.pairwise_cons.mpr ⟨fun y hy => ?_, h⟩
        rcases List.mem_cons.mp hy with rfl | hy
        · exact hlt
        · exact hlt.trans (ha y hy)
      · next hge =>
        refine List.pairwise_cons.mpr ⟨fun y hy => ?_, ih hl⟩
        rcases (mem_addCause l x y).mp hy with rfl | hy
        · exact lt_of_le_of_ne (not_lt.mp hge) (fun e => hne (TripCause.code_injective e))
        · exact ha y hy

theorem TripSound.withTrip {r : CraneRec} (h : TripSound r) (x : TripCause) : TripSound (r.withTrip x) where
  clear e := by simp [CraneRec.withTrip] at e
  latched _ := by
    cases hl : r.tripLatched with
    | true =>
      obtain ⟨y, h1, h2⟩ := h.latched hl
      exact ⟨y, by simp [CraneRec.withTrip, hl, h1], by simp [CraneRec.withTrip, hl, mem_addCause, h2]⟩
    | false => exact ⟨x, by simp [CraneRec.withTrip, hl], by simp [CraneRec.withTrip, hl]⟩
  rising := by
    cases hl : r.tripLatched with
    | true => simpa [CraneRec.withTrip, hl] using addCause_rising h.rising x
    | false => simp [CraneRec.withTrip, hl]

theorem TripSound.same {a b : CraneRec} (h : TripSound a) (e : SameTrip a b) : TripSound b where
  clear := by rw [e.latched, e.first, e.causes]; exact h.clear
  latched := by rw [e.latched, e.first, e.causes]; exact h.latched
  rising := by rw [e.causes]; exact h.rising

theorem TripSound.atStart {r : CraneRec} (h : ∃ m lo hi seg k i, r = .atStart m lo hi seg k i) : TripSound r := by
  obtain ⟨m, lo, hi, seg, k, i, rfl⟩ := h
  constructor <;> simp [CraneRec.atStart]

theorem TripSound.setCrane {s : State} (h : ∀ x, TripSound (s.crane x)) {c : Crane} {r : CraneRec} (hr : TripSound r)
    (x : Crane) : TripSound ((s.setCrane c r).crane x) := by
  rw [State.setCrane_crane]
  split
  · exact hr
  · exact h x

theorem TripSound.setRefresh {s : State} (h : ∀ x, TripSound (s.crane x)) {c : Crane} {r : CraneRec} (hr : TripSound r)
    (x : Crane) : TripSound (((s.setCrane c r).refreshPermit c).crane x) := by
  rw [refreshPermit_eq]
  refine TripSound.setCrane h (hr.same ?_) x
  exact ⟨rfl, rfl, rfl, rfl, rfl⟩

theorem refreshPermit_sameTrip (s : State) (c x : Crane) : SameTrip (s.crane x) ((s.refreshPermit c).crane x) :=
  SameTrip.setCrane (r := { s.crane c with permit := s.permitHolds c }) ⟨rfl, rfl, rfl, rfl, rfl⟩ x

theorem grant_sameTrip (s : State) (c : Crane) (lo hi : Nat) (x : Crane) : SameTrip (s.crane x) ((s.grant c lo hi).crane x) := by
  obtain ⟨e, hc⟩ := grant_crane s c lo hi
  rw [e, ← hc x]
  exact refreshPermit_sameTrip _ c x

theorem release_sameTrip (s : State) (c : Crane) (lo hi : Nat) (x : Crane) :
    SameTrip (s.crane x) ((s.release c lo hi).crane x) := by
  obtain ⟨e, hc⟩ := release_crane s c lo hi
  rw [e, ← hc x]
  exact refreshPermit_sameTrip _ c x

theorem setRefresh_sameTrip {s : State} {c : Crane} {r : CraneRec} (h : SameTrip (s.crane c) r) (x : Crane) :
    SameTrip (s.crane x) (((s.setCrane c r).refreshPermit c).crane x) := by
  rw [refreshPermit_eq]
  refine SameTrip.setCrane ?_ x
  exact ⟨h.latched, h.first, h.causes, h.touchFirst, h.touchLast⟩

theorem paramMove_sameTrip (s : State) (q : Param) (v : Nat) (x : Crane) :
    SameTrip (s.crane x) (((s.putParam q v).paramEffect q).crane x) := by
  obtain ⟨f, e⟩ := paramMove_crane s q v x
  rw [e]
  exact ⟨rfl, rfl, rfl, rfl, rfl⟩

theorem Move.keeps_tripSound {s t : State} (m : Move s t) (h : ∀ x, TripSound (s.crane x)) (x : Crane) :
    TripSound (t.crane x) := by
  cases m with
  | rsv c lo hi hhi =>
    rcases rsv_cases s c lo hi with ⟨r, d, e⟩ | ⟨-, -, -, -, -, -, e⟩ <;> rw [e]
    · exact h x
    · exact (h x).same (grant_sameTrip s c lo hi x)
  | rel c lo hi hhi =>
    rcases rel_cases s c lo hi with ⟨r, d, e⟩ | ⟨-, -, -, -, -, e⟩ <;> rw [e]
    · exact h x
    · exact (h x).same (release_sameTrip s c lo hi x)
  | frel c lo hi hhi =>
    rcases frel_cases s c lo hi with ⟨r, d, e⟩ | ⟨-, -, -, -, -, e⟩ <;> rw [e]
    · exact h x
    · exact (h x).same (release_sameTrip s c lo hi x)
  | sealZone z => rw [sealZone_crane]; exact h x
  | unsealZone z => rw [unsealZone_crane]; exact h x
  | param q v => exact (h x).same (paramMove_sameTrip s q _ x)
  | warm l => exact .atStart (warmStart_crane s l x)
  | cold l => exact .atStart (coldStartAt_crane s l x)
  | restart c =>
    rw [restartKeepalive_eq]
    refine (h x).same (SameTrip.setCrane ?_ x)
    exact ⟨rfl, rfl, rfl, rfl, rfl⟩
  | envelope c =>
    have hr : TripSound (s.envelopeRec c) := ⟨(h c).clear, (h c).latched, (h c).rising⟩
    rcases takeEnvelope_cases s c with ⟨e, -⟩ | e <;> rw [e]
    · exact TripSound.setCrane h hr x
    · exact TripSound.setRefresh h (hr.withTrip _) x
  | crane c r hs => exact (h x).same (SameTrip.setCrane hs.sameTrip x)
  | trip c y => exact TripSound.setRefresh h ((h c).withTrip y) x
  | clearTrip c => exact TripSound.setRefresh h (by constructor <;> simp) x
  | unreference | home | keepalive | creep =>
    refine (h x).same (setRefresh_sameTrip ?_ x)
    exact ⟨rfl, rfl, rfl, rfl, rfl⟩
  | refresh c => exact (h x).same (refreshPermit_sameTrip s c x)
  | elapse =>
    rw [elapse_crane]
    exact (h x).same ⟨rfl, rfl, rfl, rfl, rfl⟩
  | bin | cell | bay | slot | counter | sched | loop | zone | shutter | manual | gen | port | power | coldStart =>
    simpa using h x

/-! ## The last envelopes (R101, R104, R110, R118) -/

theorem touchedHeld_iff (s : State) (c : Crane) :
    s.touchedHeld c = true ↔
      ∀ n, (s.crane c).touchFirst ≤ n → n ≤ (s.crane c).touchLast → (s.seg n).holder = some c := by
  simp [State.touchedHeld, State.touched, mem_upTo, State.holds]

/-- The crane must hold its last touched segments: its latch is clear, or holds FIRE alone. -/
def CraneRec.bound (r : CraneRec) : Prop := r.tripLatched = false ∨ r.tripCauses = [.fire]

theorem envelopeHeld_iff (s : State) : EnvelopeHeld s ↔ ∀ c, (s.crane c).bound → s.touchedHeld c = true := by
  simp only [touchedHeld_iff]
  rfl

/-- The last envelopes stay held where the trip records and the touched segments stand and no touched segment is taken away. -/
theorem EnvelopeHeld.same {s t : State} (h : EnvelopeHeld s) (ht : ∀ x, SameTrip (s.crane x) (t.crane x))
    (hh : ∀ x n, (s.crane x).touchFirst ≤ n → n ≤ (s.crane x).touchLast → (s.seg n).holder = some x →
      (t.seg n).holder = some x) : EnvelopeHeld t := by
  intro x hb n h1 h2
  obtain ⟨e1, -, e2, e3, e4⟩ := ht x
  rw [e1, e2] at hb
  rw [e3] at h1
  rw [e4] at h2
  exact hh x n h1 h2 (h x hb n h1 h2)

theorem EnvelopeHeld.sameRail {s t : State} (h : EnvelopeHeld s) (ht : ∀ x, SameTrip (s.crane x) (t.crane x))
    (hs : t.segs = s.segs) : EnvelopeHeld t :=
  h.same ht (fun x n _ _ hh => by simpa [State.seg, hs] using hh)

/-- One crane's record is written: it must hold its touched segments if it is bound to. -/
theorem EnvelopeHeld.setRefresh {s : State} (h : EnvelopeHeld s) {c : Crane} {r : CraneRec}
    (hr : r.bound → ∀ n, r.touchFirst ≤ n → n ≤ r.touchLast → (s.seg n).holder = some c) :
    EnvelopeHeld ((s.setCrane c r).refreshPermit c) := by
  intro x
  rw [refreshPermit_eq, State.setCrane_crane]
  split
  · next e =>
    subst e
    simpa [CraneRec.bound] using hr
  · simpa using h x

theorem EnvelopeHeld.setCrane {s : State} (h : EnvelopeHeld s) {c : Crane} {r : CraneRec}
    (hr : r.bound → ∀ n, r.touchFirst ≤ n → n ≤ r.touchLast → (s.seg n).holder = some c) :
    EnvelopeHeld (s.setCrane c r) := by
  intro x
  rw [State.setCrane_crane]
  split
  · next e =>
    subst e
    simpa [CraneRec.bound] using hr
  · simpa using h x

/-- A crane bound to its envelope after a trip was bound to it before: only a FIRE trip of a clear latch leaves FIRE alone. -/
theorem TripSound.bound_of_withTrip {r : CraneRec} (h : TripSound r) {x : TripCause} (hb : (r.withTrip x).bound) : r.bound := by
  cases hl : r.tripLatched with
  | false => exact .inl hl
  | true =>
    refine .inr ?_
    have hc : addCause r.tripCauses x = [.fire] := by simpa [CraneRec.bound, CraneRec.withTrip, hl] using hb
    obtain ⟨y, -, hy⟩ := h.latched hl
    have honly : ∀ z ∈ r.tripCauses, z = .fire := fun z hz => by
      have : z ∈ addCause r.tripCauses x := (mem_addCause _ _ _).mpr (.inr hz)
      simpa [hc] using this
    cases hcs : r.tripCauses with
    | nil => simp [hcs] at hy
    | cons a l =>
      obtain ⟨hlt, -⟩ := List.pairwise_cons.mp (hcs ▸ h.rising)
      have ha := honly a (by simp [hcs])
      cases l with
      | nil => rw [ha]
      | cons b l =>
        have hb' := honly b (by simp [hcs])
        have := hlt b (by simp)
        simp [ha, hb'] at this

/-- A record whose cause set holds a cause other than FIRE is not bound. -/
theorem not_bound_of_trip {r : CraneRec} {x : TripCause} (hx : x ≠ .fire) : ¬(r.withTrip x).bound := by
  have hm : x ∈ (r.withTrip x).tripCauses := by
    unfold CraneRec.withTrip
    split <;> simp [mem_addCause]
  rintro (hb | hb)
  · simp [CraneRec.withTrip] at hb
  · rw [hb] at hm
    exact hx (by simpa using hm)

theorem not_bound_of_hasTrip {r : CraneRec} {x : TripCause} (h : r.hasTrip x = true) (hx : x ≠ .fire) : ¬r.bound := by
  simp only [CraneRec.hasTrip, Bool.and_eq_true, List.contains_iff_mem] at h
  rintro (hb | hb)
  · simp [h.1] at hb
  · rw [hb] at h
    exact hx (by simpa using h.2)

theorem EnvelopeHeld.takeEnvelope {s : State} (h : EnvelopeHeld s) (c : Crane) :
    EnvelopeHeld (s.takeEnvelope c) := by
  rcases takeEnvelope_cases s c with ⟨e, hheld | htrip⟩ | e <;> rw [e]
  · exact h.setCrane (fun _ n => by simpa using (touchedHeld_iff _ _).mp hheld n)
  · exact h.setCrane (fun hb => absurd hb (not_bound_of_hasTrip htrip (by decide)))
  · exact h.setRefresh (fun hb => absurd hb (not_bound_of_trip (by decide)))

theorem EnvelopeHeld.release {s : State} (h : EnvelopeHeld s) {c : Crane} {lo hi : Nat} (h1 : s.notOwned c lo hi = none)
    (h2 : s.touchedIn c lo hi = none) : EnvelopeHeld (s.release c lo hi) := by
  refine h.same (release_sameTrip s c lo hi) (fun x n hf hl hh => ?_)
  rw [← holds_eq_true, release_holder h1]
  refine ⟨(holds_eq_true ..).mpr hh, ?_⟩
  rintro ⟨rfl, hlo, hhi⟩
  simpa [hf, hl] using List.find?_eq_none.mp h2 n ((mem_upTo ..).mpr ⟨hlo, hhi⟩)

/-- CLRT finds every touched segment held (R110 condition 2). -/
theorem touchedHeld_of_clrt {s : State} {c : Crane} (h : s.clrtRefusal c = none) : s.touchedHeld c = true := by
  unfold State.clrtRefusal at h
  split at h
  · cases h
  · split at h
    · cases h
    · simpa using ‹¬(!s.touchedHeld c) = true›

theorem EnvelopeHeld.atStart {t : State} (h : ∀ x, ∃ m lo hi seg k i, t.crane x = .atStart m lo hi seg k i) :
    EnvelopeHeld t := by
  rw [envelopeHeld_iff]
  intro x hb
  obtain ⟨m, lo, hi, seg, k, i, e⟩ := h x
  rw [e] at hb
  rcases hb with hb | hb <;> simp [CraneRec.atStart] at hb

theorem Move.keeps_envelopeHeld {s t : State} (m : Move s t) (hr : RailSound s) (hts : ∀ x, TripSound (s.crane x))
    (h : EnvelopeHeld s) : EnvelopeHeld t := by
  cases m with
  | rsv c lo hi hhi =>
    rcases rsv_cases s c lo hi with ⟨r, d, e⟩ | ⟨-, h1, h2, -, -, -, e⟩ <;> rw [e]
    · exact h
    · refine h.same (grant_sameTrip s c lo hi) (fun x n _ _ hh => ?_)
      rw [← holds_eq_true, grant_holder h1 h2]
      exact .inl ((holds_eq_true ..).mpr hh)
  | rel c lo hi hhi =>
    rcases rel_cases s c lo hi with ⟨r, d, e⟩ | ⟨-, h1, -, h2, -, e⟩ <;> rw [e]
    · exact h
    · exact h.release h1 h2
  | frel c lo hi hhi =>
    rcases frel_cases s c lo hi with ⟨r, d, e⟩ | ⟨-, -, h1, -, h2, e⟩ <;> rw [e]
    · exact h
    · exact h.release h1 h2
  | sealZone z =>
    exact h.same (fun x => .of_eq (sealZone_crane s z x)) (fun x n _ _ hh => by rwa [sealZone_holder])
  | unsealZone z =>
    exact h.same (fun x => .of_eq (unsealZone_crane s z x)) (fun x n _ _ hh => by rwa [hr.unseal_holder])
  | param q v => exact h.sameRail (paramMove_sameTrip s q _) (paramMove_segs s q _)
  | warm l => exact .atStart (warmStart_crane s l)
  | cold l => exact .atStart (coldStartAt_crane s l)
  | restart c =>
    rw [restartKeepalive_eq]
    refine h.sameRail (SameTrip.setCrane ?_) (by simp)
    exact ⟨rfl, rfl, rfl, rfl, rfl⟩
  | envelope c => exact h.takeEnvelope c
  | crane c r hs => exact h.sameRail (SameTrip.setCrane hs.sameTrip) (by simp)
  | trip c y => exact h.setRefresh (fun hb => h c ((hts c).bound_of_withTrip hb))
  | clearTrip c hc => exact h.setRefresh (fun _ => (touchedHeld_iff s c).mp (touchedHeld_of_clrt hc))
  | unreference c | home c | keepalive c | creep c => exact h.setRefresh (fun hb => h c hb)
  | refresh c => exact h.sameRail (refreshPermit_sameTrip s c) (by simp [State.refreshPermit])
  | elapse => exact h.sameRail (fun x => by rw [elapse_crane]; exact ⟨rfl, rfl, rfl, rfl, rfl⟩) rfl
  | bin | cell | bay | slot | counter | sched | loop | zone | shutter | manual | gen | port | power | coldStart =>
    exact h.sameRail (fun x => .of_eq (by simp)) (by simp)

/-- What holds together while a driven crane's last envelope stays within its holding. -/
structure EnvelopeInvariant (s : State) : Prop where
  rail : RailSound s
  trips : ∀ c, TripSound (s.crane c)
  held : EnvelopeHeld s

theorem Move.keeps_envelopeInvariant {s t : State} (m : Move s t) (h : EnvelopeInvariant s) : EnvelopeInvariant t :=
  ⟨m.keeps_railSound h.rail, m.keeps_tripSound h.trips, m.keeps_envelopeHeld h.rail h.trips h.held⟩

theorem EnvelopeInvariant.setPending {s : State} (h : EnvelopeInvariant s) (l : List Instr) :
    EnvelopeInvariant { s with pending := l } := by
  have hc : ∀ x, ({ s with pending := l } : State).crane x = s.crane x := fun x => by cases x <;> rfl
  exact ⟨h.rail.congr rfl, fun x => by rw [hc]; exact h.trips x, h.held.sameRail (fun x => .of_eq (hc x)) rfl⟩

/-- A permit that its conditions allow is on for a bound crane alone (R104). -/
theorem bound_of_permit {s : State} (h : PermitSound s) {c : Crane} (hp : (s.crane c).permit = true) : (s.crane c).bound := by
  rw [h c] at hp
  simp only [State.permitHolds, Bool.and_eq_true] at hp
  obtain ⟨⟨ha, -⟩, -⟩ := hp
  simp only [CraneRec.tripAllows, Bool.or_eq_true, Bool.not_eq_true', Bool.and_eq_true, beq_iff_eq] at ha
  exact ha.imp id And.left

/-- Settles O36: every step keeps the rail, the trip records and the held envelopes together; a permit is on for a bound crane
alone. -/
theorem stepKeepsEnvelopesHeld : Obligations.StepKeepsEnvelopesHeld := by
  refine ⟨fun s t hr ht he e => ?_, fun s c n he hp hon => he c (bound_of_permit hp hon) n⟩
  exact (step_keeps (P := EnvelopeInvariant) (fun u l h => h.setPending l) (fun u v m h => m.keeps_envelopeInvariant h)
    (⟨hr, ht, he⟩ : EnvelopeInvariant s) e).held

end Sys2Proof.Machine

end

/-! # Every step keeps every record sound (R102, R150, R153, R166, R174, R194 to R196, R199, R202, R203) -/

section

namespace Sys2Proof.Machine

/-! ## The tables -/

/-- `State.tablesWf` table by table. -/
structure TablesWf (s : State) : Prop where
  bins : tableWf .cold s.bins = true
  cells : tableWf .cold s.cells = true
  bays : tableWf .cold s.bays = true
  slots : tableWf .cold s.slots = true
  segs : tableWf .cold s.segs = true
  loops : tableWf .cold s.loops = true
  zones : tableWf .cold s.zones = true
  shutters : tableWf .atTop s.shutters = true
  gens : tableWf .cold s.gens = true
  lines : tableWf .low s.lines = true
  settings : tableWf .default s.settings.gens = true

theorem tablesWf_iff (s : State) : s.tablesWf = true ↔ TablesWf s := by
  simp only [State.tablesWf, Bool.and_eq_true]
  constructor
  · rintro ⟨⟨⟨⟨⟨⟨⟨⟨⟨⟨h1, h2⟩, h3⟩, h4⟩, h5⟩, h6⟩, h7⟩, h8⟩, h9⟩, h10⟩, h11⟩
    exact ⟨h1, h2, h3, h4, h5, h6, h7, h8, h9, h10, h11⟩
  · rintro ⟨h1, h2, h3, h4, h5, h6, h7, h8, h9, h10, h11⟩
    exact ⟨⟨⟨⟨⟨⟨⟨⟨⟨⟨h1, h2⟩, h3⟩, h4⟩, h5⟩, h6⟩, h7⟩, h8⟩, h9⟩, h10⟩, h11⟩

theorem TablesWf.setCrane {s : State} (h : TablesWf s) (c : Crane) (r : CraneRec) : TablesWf (s.setCrane c r) := by
  cases c <;> exact { h with }

theorem TablesWf.setPort {s : State} (h : TablesWf s) (p : Port) (q : LinkPort) : TablesWf (s.setPort p q) := by
  cases p <;> exact { h with }

theorem TablesWf.setSeg {s : State} (h : TablesWf s) (n : Nat) (r : Segment) : TablesWf (s.setSeg n r) :=
  { h with segs := tableSet_wf _ _ _ _ h.segs }

theorem TablesWf.foldSeg {s : State} (h : TablesWf s) {f : State → Nat → State} (hf : ∀ u n, ∃ r, f u n = u.setSeg n r ∨ f u n = u)
    (l : List Nat) : TablesWf (l.foldl f s) := by
  refine foldl_keeps (P := TablesWf) (fun u n hu => ?_) l h
  obtain ⟨r, e | e⟩ := hf u n
  · rw [e]; exact hu.setSeg n r
  · rwa [e]

/-- What neither a segment nor a crane record holds, a grant or a release leaves. -/
theorem foldSeg_leaves {β : Type} {g : State → β} (hseg : ∀ u n r, g (u.setSeg n r) = g u)
    (hcrane : ∀ u c r, g (u.setCrane c r) = g u) {f : State → Nat → State}
    (hf : ∀ u n, ∃ r, f u n = u.setSeg n r ∨ f u n = u) (l : List Nat) (c : Crane) (s : State) :
    g ((l.foldl f s).refreshPermit c) = g s := by
  rw [State.refreshPermit, hcrane]
  refine foldl_leaves g (fun u n => ?_) l s
  obtain ⟨r, e | e⟩ := hf u n
  · rw [e, hseg]
  · rw [e]

theorem grantSeg_writes (c : Crane) (u : State) (n : Nat) : ∃ r, u.grantSeg c n = u.setSeg n r ∨ u.grantSeg c n = u := by
  unfold State.grantSeg
  split
  · exact ⟨_, .inl rfl⟩
  · exact ⟨u.seg n, .inr rfl⟩

theorem rsv_leaves {β : Type} {g : State → β} (hseg : ∀ u n r, g (u.setSeg n r) = g u)
    (hcrane : ∀ u c r, g (u.setCrane c r) = g u) (s : State) (c : Crane) (lo hi : Nat) : g (s.rsv c lo hi).1 = g s := by
  rcases rsv_cases s c lo hi with ⟨r, d, e⟩ | ⟨-, -, -, -, -, -, e⟩ <;> rw [e]
  exact foldSeg_leaves hseg hcrane (grantSeg_writes c) _ c s

theorem rel_leaves {β : Type} {g : State → β} (hseg : ∀ u n r, g (u.setSeg n r) = g u)
    (hcrane : ∀ u c r, g (u.setCrane c r) = g u) (s : State) (c : Crane) (lo hi : Nat) : g (s.rel c lo hi).1 = g s := by
  rcases rel_cases s c lo hi with ⟨r, d, e⟩ | ⟨-, -, -, -, -, e⟩ <;> rw [e]
  exact foldSeg_leaves hseg hcrane (fun _ _ => ⟨_, .inl rfl⟩) _ c s

theorem frel_leaves {β : Type} {g : State → β} (hseg : ∀ u n r, g (u.setSeg n r) = g u)
    (hcrane : ∀ u c r, g (u.setCrane c r) = g u) (s : State) (c : Crane) (lo hi : Nat) : g (s.frel c lo hi).1 = g s := by
  rcases frel_cases s c lo hi with ⟨r, d, e⟩ | ⟨-, -, -, -, -, e⟩ <;> rw [e]
  exact foldSeg_leaves hseg hcrane (fun _ _ => ⟨_, .inl rfl⟩) _ c s

theorem sealZone_leaves {β : Type} {g : State → β} (hseg : ∀ u n r, g (u.setSeg n r) = g u) (s : State) (z : Nat) :
    g (s.sealZone z) = g s := foldl_leaves g (fun u _ => hseg u _ _) _ s

theorem unsealZone_leaves {β : Type} {g : State → β} (hseg : ∀ u n r, g (u.setSeg n r) = g u) (s : State) (z : Nat) :
    g (s.unsealZone z) = g s := foldl_leaves g (fun u _ => hseg u _ _) _ s

theorem TablesWf.grant {s : State} (h : TablesWf s) (c : Crane) (lo hi : Nat) : TablesWf (s.grant c lo hi) :=
  (h.foldSeg (grantSeg_writes c) _).setCrane _ _

theorem TablesWf.release {s : State} (h : TablesWf s) (c : Crane) (lo hi : Nat) : TablesWf (s.release c lo hi) :=
  (h.foldSeg (fun _ _ => ⟨_, .inl rfl⟩) _).setCrane _ _

theorem TablesWf.putParam {s : State} (h : TablesWf s) (q : Param) (v : Nat) : TablesWf (s.putParam q v) := by
  cases q with
  | crane c r => cases c <;> exact { h with }
  | gen k r => exact { h with settings := tableSet_wf _ _ _ _ h.settings }
  | line n => exact { h with lines := tableSet_wf _ _ _ _ h.lines }
  | _ => exact { h with }

theorem TablesWf.paramEffect {s : State} (h : TablesWf s) (q : Param) : TablesWf (s.paramEffect q) := by
  cases q with
  | crane c r =>
    cases r with
    | cpr => exact h.setCrane _ _
    | _ => exact h
  | gen k r =>
    have hg : tableWf .cold (s.setGen k .cold).gens = true := tableSet_wf _ s.gens k .cold h.gens
    exact { h with gens := hg }
  | split => exact { h with }
  | _ => exact h

theorem shuttersAt_wf (l : StartLevels) : tableWf .atTop (shuttersAt l) = true :=
  tableSet_wf _ _ _ _ (tableSet_wf _ _ _ _ (tableSet_wf _ _ _ _ rfl))

theorem default_gens_wf : tableWf .default Settings.default.gens = true := by decide

theorem Move.keeps_tablesWf {s t : State} (m : Move s t) (h : TablesWf s) : TablesWf t := by
  cases m with
  | bin n r => exact { h with bins := tableSet_wf _ _ _ _ h.bins }
  | cell n r => exact { h with cells := tableSet_wf _ _ _ _ h.cells }
  | bay st b r => exact { h with bays := tableSet_wf _ _ _ _ h.bays }
  | slot i r => exact { h with slots := tableSet_wf _ _ _ _ h.slots }
  | loop z r => exact { h with loops := tableSet_wf _ _ _ _ h.loops }
  | zone z r => exact { h with zones := tableSet_wf _ _ _ _ h.zones }
  | shutter k r => exact { h with shutters := tableSet_wf _ _ _ _ h.shutters }
  | gen k r => exact { h with gens := tableSet_wf _ _ _ _ h.gens }
  | counter | sched | manual | power | coldStart => exact { h with }
  | param q v => exact (h.putParam q _).paramEffect q
  | rsv c lo hi hhi =>
    rcases rsv_cases s c lo hi with ⟨r, d, e⟩ | ⟨-, -, -, -, -, -, e⟩ <;> rw [e]
    · exact h
    · exact h.grant c lo hi
  | rel c lo hi hhi =>
    rcases rel_cases s c lo hi with ⟨r, d, e⟩ | ⟨-, -, -, -, -, e⟩ <;> rw [e]
    · exact h
    · exact h.release c lo hi
  | frel c lo hi hhi =>
    rcases frel_cases s c lo hi with ⟨r, d, e⟩ | ⟨-, -, -, -, -, e⟩ <;> rw [e]
    · exact h
    · exact h.release c lo hi
  | sealZone z | unsealZone z => exact h.foldSeg (fun _ _ => ⟨_, .inl rfl⟩) _
  | trip | unreference | home | keepalive | creep | clearTrip => exact (h.setCrane _ _).setCrane _ _
  | refresh | crane => exact h.setCrane _ _
  | restart c => rw [restartKeepalive_eq]; exact h.setCrane _ _
  | envelope c =>
    obtain ⟨r, e⟩ := takeEnvelope_eq s c
    rw [e]
    exact h.setCrane _ _
  | port p q => exact h.setPort p q
  | warm l =>
    exact
      { h with
        bins := tableMap_wf _ _ _ h.bins, cells := tableMap_wf _ _ _ h.cells, bays := tableMap_wf _ _ _ h.bays
        slots := rfl, segs := rfl, loops := rfl, zones := rfl, gens := rfl, lines := rfl, shutters := shuttersAt_wf l }
  | cold l => exact ⟨rfl, rfl, rfl, rfl, rfl, rfl, rfl, shuttersAt_wf l, rfl, rfl, default_gens_wf⟩
  | elapse =>
    exact
      { h with
        slots := tableMap_wf _ _ _ h.slots, zones := tableMap_wf _ _ _ h.zones
        shutters := tableMap_wf _ _ _ h.shutters }

/-! ## The link ports -/

theorem PortSound.atStart (x : Straps) : PortSound (.atStart x) := by
  constructor <;> simp [LinkPort.atStart]

theorem PortSound.offer {q : LinkPort} (h : PortSound q) (n : Notice) : PortSound (q.offer n) := by
  unfold LinkPort.offer
  split
  · exact { h with queue := by simpa using h.queue }
  · split
    · next hlt => exact { h with queue := by simpa [noticeCapacity] using hlt }
    · exact { h with }

theorem PortSound.pump {q : LinkPort} (h : PortSound q) : PortSound q.pump := by
  unfold LinkPort.pump
  split
  · exact h
  · split
    · exact { h with }
    · split
      · exact h
      · next n rest e =>
        refine { h with queue := ?_ }
        have := h.queue
        simp only [e, List.length_cons] at this
        change rest.length ≤ 16
        omega

/-- The next character joins a sound partial message, where it ends no message (R195). -/
theorem Partial.sound_append {m : Partial} (h : m.sound) (c : RxChar) (d : Bool)
    (hl : m.bytes.length = 1 → c.data.toNat ≤ 48) (hc : 2 ≤ m.bytes.length → m.bytes.length ≠ m.length + 3) :
    Partial.sound ⟨m.bytes ++ [c.data], d⟩ := by
  obtain ⟨h1, h2⟩ := h
  refine ⟨by simp, fun _ => ?_⟩
  rcases Nat.lt_or_ge m.bytes.length 2 with hlt | hge
  · have hone : m.bytes.length = 1 := by omega
    have hlen : (m.bytes ++ [c.data]).getD 1 0 = c.data := by simp [List.getD, hone]
    simp only [Partial.length, hlen, List.length_append, hone, List.length_singleton]
    exact ⟨hl hone, by omega⟩
  · have hlen : (m.bytes ++ [c.data]).getD 1 0 = m.bytes.getD 1 0 := by simp [List.getD, List.getElem?_append_left hge]
    have := h2 hge
    have := hc hge
    simp only [Partial.length, hlen, List.length_append, List.length_singleton] at *
    omega

/-- The assembler takes a character that ends no message (R195). -/
theorem PortSound.takeChar {q : LinkPort} (h : PortSound q) (hi : q.item = none) {c : RxChar} {rest : List RxChar}
    (hf : q.fifo = c :: rest) (hl : q.lengthEnds = false) (hc : q.checkEnds = false) :
    PortSound (({ q with fifo := rest } : LinkPort).takeChar c) := by
  have hrest : rest.length ≤ 64 := by have := h.fifo; simp only [hf, List.length_cons] at this; omega
  unfold LinkPort.takeChar
  simp only
  split
  · exact { h with fifo := hrest }
  · exact
      { h with
        fifo := hrest
        hunting := by simp [hi]
        partialOk := by rintro m ⟨⟩; exact ⟨by simp, by simp⟩ }
  · next m hm hmark =>
    refine { h with fifo := hrest, hunting := by simp [hi], partialOk := ?_ }
    rintro m' ⟨⟩
    simp only [LinkPort.lengthEnds, LinkPort.checkEnds, hm, hf, hmark, maxRxLength] at hl hc
    refine Partial.sound_append (h.partialOk m hm) c _ (fun h1 => ?_) (fun h2 h3 => ?_)
    · exact not_lt.mp (fun hlt => by simp [h1, hlt] at hl)
    · simp [h3] at hc
  · exact
      { h with
        fifo := hrest
        hunting := by simp [hi]
        partialOk := by rintro m ⟨⟩; exact ⟨by simp, by simp⟩ }

theorem takeChar_item (q : LinkPort) (c : RxChar) : (q.takeChar c).item = q.item := by
  unfold LinkPort.takeChar
  split <;> rfl

theorem PortSound.assembleSteps {q : LinkPort} (h : PortSound q) (n : Nat) : PortSound (assembleSteps n q) := by
  induction n generalizing q with
  | zero => exact h
  | succ n ih =>
    unfold Machine.assembleSteps
    split
    · exact h
    · next hgo =>
      simp only [Bool.or_eq_true, not_or, Bool.not_eq_true, Option.isSome_eq_false_iff, Option.isNone_iff_eq_none] at hgo
      obtain ⟨⟨hi, hl⟩, hc⟩ := hgo
      split
      · exact h
      · next c rest hf => exact ih (h.takeChar hi hf hl hc)

theorem PortSound.assemble {q : LinkPort} (h : PortSound q) : PortSound q.assemble := h.assembleSteps _

theorem PortSound.enter {q : LinkPort} (h : PortSound q) (d : Byte) (x y : Bool) : PortSound (q.enter d x y) := by
  unfold LinkPort.enter
  split
  · next hlt => exact { h with fifo := by simpa [fifoCapacity] using hlt }
  · exact { h with }

theorem PortMove.keeps_portSound {q r : LinkPort} (m : PortMove q r) (h : PortSound q) : PortSound r := by
  cases m with
  | offer n => exact h.offer n
  | pump => exact h.pump
  | takeItem => exact (PortSound.assemble { h with hunting := by simp })
  | complete m c rest hf | overlength m c rest hf =>
    have := h.fifo
    simp only [hf, List.length_cons] at this
    exact { h with fifo := by change rest.length ≤ 64; omega, hunting := fun _ => rfl, partialOk := by rintro m ⟨⟩ }
  | takeBreak => exact { h with fifo := by simp [LinkPort.takeBreak], hunting := fun _ => rfl, partialOk := by rintro m ⟨⟩ }
  | noise v =>
    unfold LinkPort.noteNoise
    split <;> exact { h with }
  | arrive f =>
    refine PortSound.assemble ?_
    unfold LinkPort.arrive
    split
    · exact h.enter _ _ _
    · refine PortSound.enter ?_ _ _ _
      exact { h with }
  | respond | breakEnd | clearFlags | stop | sent => exact { h with }

theorem paramMove_port (s : State) (q : Param) (v : Nat) (p : Port) : ((s.putParam q v).paramEffect q).port p = s.port p := by
  obtain ⟨st, ls, h⟩ := putParam_eq s q v
  have hp : (s.putParam q v).port p = s.port p := by rw [h]; cases p <;> rfl
  cases q with
  | crane c r => cases r <;> simpa [State.paramEffect, State.dropPhase] using hp
  | _ => simpa [State.paramEffect, State.trimCursor] using hp

theorem elapse_port (s : State) (p : Port) : s.elapse.port p = s.port p := by cases p <;> rfl

theorem Move.keeps_portSound {s t : State} (m : Move s t) (h : ∀ p, PortSound (s.port p)) (p : Port) : PortSound (t.port p) := by
  cases m with
  | port p' q hm =>
    rw [State.setPort_port]
    split
    · exact hm.keeps_portSound (h _)
    · exact h p
  | rsv => rw [rsv_leaves (g := fun u => u.port p) (by simp) (by simp)]; exact h p
  | rel => rw [rel_leaves (g := fun u => u.port p) (by simp) (by simp)]; exact h p
  | frel => rw [frel_leaves (g := fun u => u.port p) (by simp) (by simp)]; exact h p
  | sealZone => rw [sealZone_leaves (g := fun u => u.port p) (by simp)]; exact h p
  | unsealZone => rw [unsealZone_leaves (g := fun u => u.port p) (by simp)]; exact h p
  | param q v => rw [paramMove_port]; exact h p
  | restart c => rw [restartKeepalive_eq]; simpa using h p
  | envelope c =>
    obtain ⟨r, e⟩ := takeEnvelope_eq s c
    rw [e]
    simpa using h p
  | warm l | cold l => cases p <;> exact .atStart _
  | trip | unreference | home | keepalive | creep | clearTrip | refresh =>
    simpa [State.refreshPermit, State.unreference, State.captureHome, State.setKeepalive, State.setCreep, State.clearTrip]
      using h p
  | elapse => rw [elapse_port]; exact h p
  | bin | cell | bay | slot | counter | sched | loop | zone | shutter | manual | gen | crane | power | coldStart =>
    simpa using h p

/-! ## The settings (R202, R203) -/

theorem craneSettings_get_put (r : CraneSettings) (q q' : CraneParam) (v : Nat) :
    (r.put q v).get q' = if q' = q then v else r.get q' := by
  cases q <;> cases q' <;> rfl

theorem genSettings_get_put (r : GenSettings) (q q' : GenParam) (v : Nat) (h : q ≠ .mode) :
    (r.put q v).get q' = if q' = q then v else r.get q' := by
  cases q <;> cases q' <;> first | rfl | exact absurd rfl h

theorem genSettings_get_put_ne (r : GenSettings) (q q' : GenParam) (v : Nat) (h : q' ≠ q) : (r.put q v).get q' = r.get q' := by
  cases q <;> cases q' <;> first | rfl | exact absurd rfl h

theorem setGenSettings_genSettings (s : State) (k m : Nat) (r : GenSettings) :
    (s.setGenSettings k r).genSettings m = if m = k then r else s.genSettings m := by
  simp [State.setGenSettings, State.genSettings, State.setSettings, tableGet_set]

theorem setCraneSettings_craneSettings (s : State) (c x : Crane) (r : CraneSettings) :
    (s.setCraneSettings c r).craneSettings x = if x = c then r else s.craneSettings x := by
  cases c <;> cases x <;> rfl

/-- A parameter put leaves every other parameter (R203). -/
theorem putParam_param_ne (s : State) {q q' : Param} (v : Nat) (h : q' ≠ q) : (s.putParam q v).param q' = s.param q' := by
  cases q with
  | crane c r =>
    cases q' with
    | crane c' r' =>
      simp only [State.param, State.putParam, setCraneSettings_craneSettings]
      split
      · next e =>
        subst e
        rw [craneSettings_get_put, if_neg (fun e => h (by rw [e]))]
      · rfl
    | _ => cases c <;> rfl
  | gen k r =>
    cases q' with
    | gen k' r' =>
      simp only [State.param, State.putParam, setGenSettings_genSettings]
      split
      · next e =>
        subst e
        exact genSettings_get_put_ne _ _ _ _ (fun e => h (by rw [e]))
      · rfl
    | crane c r => cases c <;> rfl
    | _ => rfl
  | line n =>
    cases q' with
    | line n' =>
      have hne : n' ≠ n := fun e => h (by rw [e])
      simp [State.param, State.putParam, State.setLine_line, hne]
    | crane c r => cases c <;> rfl
    | _ => rfl
  | _ =>
    cases q' with
    | crane c r => cases c <;> rfl
    | _ => first | rfl | exact absurd rfl h

/-- A numeric parameter put is held (R202, R203). -/
theorem putParam_param_same (s : State) {q : Param} (v : Nat) (h : (paramRange q).isSome = true) :
    (s.putParam q v).param q = v := by
  cases q with
  | crane c r => simp [State.param, State.putParam, setCraneSettings_craneSettings, craneSettings_get_put]
  | gen k r =>
    have hr : r ≠ .mode := by rintro rfl; simp [paramRange] at h
    simp [State.param, State.putParam, setGenSettings_genSettings, genSettings_get_put _ _ _ _ hr]
  | line n => simp [paramRange] at h
  | _ => rfl

/-- The parameters are read from the settings and the line sources. -/
theorem param_congr {s t : State} (h1 : t.settings = s.settings) (h2 : t.lines = s.lines) (q : Param) : t.param q = s.param q := by
  cases q with
  | crane c r => cases c <;> simp [State.param, State.craneSettings, h1]
  | gen k r => simp [State.param, State.genSettings, h1]
  | line n => simp [State.param, State.line, h2]
  | _ => simp [State.param, h1]

/-- The effects of a changed parameter reach no parameter (R203). -/
theorem paramEffect_settings (s : State) (q : Param) :
    (s.paramEffect q).settings = s.settings ∧ (s.paramEffect q).lines = s.lines := by
  cases q with
  | crane c r => cases r <;> simp [State.paramEffect, State.dropPhase]
  | _ => simp [State.paramEffect, State.trimCursor]

theorem paramEffect_param (s : State) (q q' : Param) : (s.paramEffect q).param q' = s.param q' :=
  param_congr (paramEffect_settings s q).1 (paramEffect_settings s q).2 q'

/-- The value taken lies in the range (R203 step 3). -/
theorem valueTaken_range {q : Param} {lo hi : Nat} (h : paramRange q = some (lo, hi)) (hle : lo ≤ hi) (v : Nat) :
    lo ≤ valueTaken q v ∧ valueTaken q v ≤ hi := by
  simp only [valueTaken, h]
  omega

theorem paramRange_le {q : Param} {lo hi : Nat} (h : paramRange q = some (lo, hi)) : lo ≤ hi := by
  cases q with
  | crane c r => cases r <;> simp only [paramRange, Option.some.injEq, Prod.mk.injEq] at h <;> omega
  | gen k r =>
    cases r with
    | mode => simp [paramRange] at h
    | _ => simp only [paramRange, Option.some.injEq, Prod.mk.injEq] at h; omega
  | line n => simp [paramRange] at h
  | _ => simp only [paramRange, Option.some.injEq, Prod.mk.injEq] at h; omega

/-- A parameter that is no threshold leaves the thresholds; a threshold taken keeps their order (R203 step 4). -/
theorem thresholds_putParam {s : State} {q : Param} {v : Nat} (h : SettingsSound s) (ht : s.thresholdsOk q v = true) :
    (s.putParam q v).settings.shortTh < (s.putParam q v).settings.alarmTh ∧
      (s.putParam q v).settings.alarmTh < (s.putParam q v).settings.openTh := by
  cases q with
  | shortTh | alarmTh | openTh =>
    simp only [State.thresholdsOk, decide_eq_true_eq] at ht
    exact ht
  | crane c r => cases c <;> exact h.thresholds
  | _ => exact h.thresholds

theorem SettingsSound.congr {s t : State} (h : SettingsSound s) (h1 : t.settings = s.settings) (h2 : t.lines = s.lines) :
    SettingsSound t where
  ranged q lo hi e := by rw [param_congr h1 h2]; exact h.ranged q lo hi e
  thresholds := by rw [h1]; exact h.thresholds

/-- The soundness of the settings is that of the numeric ones: the line sources have no range. -/
theorem SettingsSound.of_settings {s t : State} (h : SettingsSound s) (h1 : t.settings = s.settings) : SettingsSound t where
  ranged q lo hi e := by
    have : t.param q = s.param q := by
      cases q with
      | crane c r => cases c <;> simp [State.param, State.craneSettings, h1]
      | gen k r => simp [State.param, State.genSettings, h1]
      | line n => simp [paramRange] at e
      | _ => simp [State.param, h1]
    rw [this]
    exact h.ranged q lo hi e
  thresholds := by rw [h1]; exact h.thresholds

theorem default_gens_get (k : Nat) : tableGet GenSettings.default Settings.default.gens k = .default := rfl

theorem SettingsSound.default {t : State} (h : t.settings = .default) : SettingsSound t where
  ranged q lo hi e := by
    cases q with
    | crane c r =>
      cases c <;> cases r <;> simp only [paramRange, Option.some.injEq, Prod.mk.injEq] at e <;>
        obtain ⟨rfl, rfl⟩ := e <;> simp only [State.param, State.craneSettings, h] <;> decide
    | gen k r =>
      cases r with
      | mode => simp [paramRange] at e
      | _ =>
        simp only [paramRange, Option.some.injEq, Prod.mk.injEq] at e
        obtain ⟨rfl, rfl⟩ := e
        simp only [State.param, State.genSettings, h, default_gens_get]
        decide
    | line n => simp [paramRange] at e
    | _ =>
      simp only [paramRange, Option.some.injEq, Prod.mk.injEq] at e
      obtain ⟨rfl, rfl⟩ := e
      simp only [State.param, h]
      decide
  thresholds := by rw [h]; decide

theorem SettingsSound.param {s : State} (h : SettingsSound s) (q : Param) (v : Nat) (ht : s.thresholdsOk q (valueTaken q v) = true) :
    SettingsSound ((s.putParam q (valueTaken q v)).paramEffect q) where
  ranged q' lo hi e := by
    rw [paramEffect_param]
    by_cases hq : q' = q
    · subst hq
      rw [putParam_param_same s _ (by simp [e])]
      exact valueTaken_range e (paramRange_le e) v
    · rw [putParam_param_ne s _ hq]
      exact h.ranged q' lo hi e
  thresholds := by
    rw [(paramEffect_settings _ q).1]
    exact thresholds_putParam h ht

/-- Every move but a parameter and a cold start leaves the settings. -/
theorem Move.settings_cases {s t : State} (m : Move s t) :
    t.settings = s.settings ∨ t.settings = .default ∨
      ∃ q v, s.thresholdsOk q (valueTaken q v) = true ∧ t = (s.putParam q (valueTaken q v)).paramEffect q := by
  cases m with
  | param q v hc ht => exact .inr (.inr ⟨q, v, ht, rfl⟩)
  | cold l => exact .inr (.inl rfl)
  | rsv => exact .inl (rsv_leaves (g := State.settings) (by simp) (by simp) ..)
  | rel => exact .inl (rel_leaves (g := State.settings) (by simp) (by simp) ..)
  | frel => exact .inl (frel_leaves (g := State.settings) (by simp) (by simp) ..)
  | sealZone => exact .inl (sealZone_leaves (g := State.settings) (by simp) ..)
  | unsealZone => exact .inl (unsealZone_leaves (g := State.settings) (by simp) ..)
  | restart c => exact .inl (by simp [restartKeepalive_eq])
  | envelope c =>
    obtain ⟨r, e⟩ := takeEnvelope_eq s c
    exact .inl (by simp [e])
  | trip | unreference | home | keepalive | creep | clearTrip | refresh =>
    exact .inl (by
      simp [State.refreshPermit, State.unreference, State.captureHome, State.setKeepalive, State.setCreep, State.clearTrip])
  | warm | elapse => exact .inl rfl
  | bin | cell | bay | slot | counter | sched | loop | zone | shutter | manual | gen | crane | port | power | coldStart =>
    exact .inl (by simp)

theorem Move.keeps_settingsSound {s t : State} (m : Move s t) (h : SettingsSound s) : SettingsSound t := by
  rcases m.settings_cases with e | e | ⟨q, v, ht, rfl⟩
  · exact h.of_settings e
  · exact .default e
  · exact h.param q v ht

/-! ## The scheduler (R150, R153) -/

theorem SchedSound.congr {s t : State} (h : SchedSound s) (hc : ∀ x, t.schedCrane x = s.schedCrane x)
    (h2 : t.settings.split = s.settings.split) : SchedSound t := by
  have hs : ∀ x, t.shareSize x = s.shareSize x := fun x => by cases x <;> simp [State.shareSize, h2]
  exact ⟨fun x => by rw [hc]; exact h.credits x, fun x => by rw [hc, hs]; exact h.cursor x⟩

/-- A scheduler whose credits are 0 and whose cursors stand, under the same split. -/
theorem SchedSound.start {s t : State} (h : SchedSound s) (h1 : t.settings.split = s.settings.split)
    (hc : ∀ x, (t.schedCrane x).credits = 0 ∧ (t.schedCrane x).cursor = (s.schedCrane x).cursor) : SchedSound t := by
  have hs : ∀ x, t.shareSize x = s.shareSize x := fun x => by cases x <;> simp [State.shareSize, h1]
  exact ⟨fun x => by rw [(hc x).1]; omega, fun x => by rw [(hc x).2, hs]; exact h.cursor x⟩

/-- A new split sets each cursor beyond its share to 0 (R150). -/
theorem SchedSound.split {s : State} (h : SchedSound s) {v : Nat} (h1 : 1 ≤ v) (h2 : v ≤ 158) :
    SchedSound ((s.putParam .split v).paramEffect .split) where
  credits
    | .A => h.credits .A
    | .B => h.credits .B
  cursor x := by
    cases x
    · change (if _ then _ else _ : Nat) < 24 * v
      split
      · assumption
      · omega
    · change (if _ then _ else _ : Nat) < cellCount - 24 * v
      split
      · assumption
      · simp only [cellCount]
        omega

theorem paramMove_sched (s : State) {q : Param} (v : Nat) (h : q ≠ .split) :
    ((s.putParam q v).paramEffect q).sched = s.sched ∧
      ((s.putParam q v).paramEffect q).settings.split = s.settings.split := by
  cases q with
  | split => exact absurd rfl h
  | crane c r => cases r <;> cases c <;> exact ⟨rfl, rfl⟩
  | _ => exact ⟨rfl, rfl⟩

theorem SchedSound.param {s : State} (h : SchedSound s) (q : Param) (v : Nat) :
    SchedSound ((s.putParam q (valueTaken q v)).paramEffect q) := by
  by_cases hq : q = .split
  · subst hq
    obtain ⟨h1, h2⟩ := valueTaken_range (q := .split) rfl (by decide) v
    exact h.split h1 h2
  · obtain ⟨h1, h2⟩ := paramMove_sched s (valueTaken q v) hq
    exact h.congr (fun x => by cases x <;> simp [State.schedCrane, h1]) h2

theorem SchedSound.cold {t : State} (h1 : t.settings = .default)
    (h2 : ∀ x, (t.schedCrane x).credits = 0 ∧ (t.schedCrane x).cursor = 0) : SchedSound t := by
  refine ⟨fun x => by rw [(h2 x).1]; omega, fun x => ?_⟩
  rw [(h2 x).2]
  cases x <;> simp only [State.shareSize, h1] <;> decide

theorem SchedSound.same {s t : State} (h : SchedSound s) (h1 : (t.sched, t.settings) = (s.sched, s.settings)) :
    SchedSound t := by
  obtain ⟨hs, hp⟩ := Prod.mk.inj h1
  exact h.congr (fun x => by cases x <;> simp [State.schedCrane, hs]) (by rw [hp])

theorem Move.keeps_schedSound {s t : State} (m : Move s t) (hs : SettingsSound s) (h : SchedSound s) : SchedSound t := by
  cases m with
  | sched r hr => exact hr hs h
  | param q v => exact h.param q v
  | warm l => exact h.start rfl (fun x => by cases x <;> exact ⟨rfl, rfl⟩)
  | cold l => exact .cold rfl (fun x => by cases x <;> exact ⟨rfl, rfl⟩)
  | elapse => exact h.congr (fun x => by cases x <;> rfl) rfl
  | rsv => exact h.same (rsv_leaves (g := fun u => (u.sched, u.settings)) (by simp) (by simp) ..)
  | rel => exact h.same (rel_leaves (g := fun u => (u.sched, u.settings)) (by simp) (by simp) ..)
  | frel => exact h.same (frel_leaves (g := fun u => (u.sched, u.settings)) (by simp) (by simp) ..)
  | sealZone => exact h.same (sealZone_leaves (g := fun u => (u.sched, u.settings)) (by simp) ..)
  | unsealZone => exact h.same (unsealZone_leaves (g := fun u => (u.sched, u.settings)) (by simp) ..)
  | restart c => exact h.same (by simp [restartKeepalive_eq])
  | envelope c =>
    obtain ⟨r, e⟩ := takeEnvelope_eq s c
    exact h.same (by simp [e])
  | trip | unreference | home | keepalive | creep | clearTrip | refresh =>
    exact h.same (by
      simp [State.refreshPermit, State.unreference, State.captureHome, State.setKeepalive, State.setCreep, State.clearTrip])
  | bin | cell | bay | slot | counter | loop | zone | shutter | manual | gen | crane | port | power | coldStart =>
    exact h.same (by simp)

/-! ## The zones and the shutters (R166, R174) -/

theorem ZoneSound.cold : ZoneSound .cold := by constructor <;> simp [Zone.cold]

theorem ZoneSound.tick {z : Zone} (h : ZoneSound z) : ZoneSound z.tick where
  latch := h.latch
  timer e := h.timer (fun e' => e (by simp [Zone.tick, e']))

theorem ShutterSound.atTop : ShutterSound .atTop := by simp [ShutterSound, Shutter.atTop]

theorem ShutterSound.tick {k : Shutter} (h : ShutterSound k) : ShutterSound k.tick := by
  simpa [ShutterSound, Shutter.tick] using h

theorem ShutterSound.atStart (l : LimitLevels) : ShutterSound (.atStart l) := by
  unfold ShutterSound Shutter.atStart
  split <;> simp
  split <;> simp

theorem FireSound.same {s t : State} (h : FireSound s) (e : (t.zones, t.shutters) = (s.zones, s.shutters)) : FireSound t := by
  obtain ⟨hz, hk⟩ := Prod.mk.inj e
  exact ⟨fun z => by simpa [State.zone, hz] using h.zones z, fun k => by simpa [State.shutter, hk] using h.shutters k⟩

theorem FireSound.atStart {t : State} {l : StartLevels} (hz : t.zones = []) (hk : t.shutters = shuttersAt l) : FireSound t where
  zones z := by
    have : t.zone z = .cold := by simp [State.zone, hz, tableGet]
    rw [this]
    exact .cold
  shutters k := by
    simp only [State.shutter, hk, shuttersAt, tableGet_set]
    split
    · exact .atStart _
    · split
      · exact .atStart _
      · split
        · exact .atStart _
        · exact .atTop

/-- A millisecond keeps every zone and shutter in its state; the tables are canonical. -/
theorem FireSound.elapse {s : State} (h : FireSound s) (hw : TablesWf s) : FireSound s.elapse where
  zones z := by
    have : s.elapse.zone z = (s.zone z).tick := tableGet_map _ _ rfl _ hw.zones z
    rw [this]
    exact (h.zones z).tick
  shutters k := by
    have : s.elapse.shutter k = (s.shutter k).tick := tableGet_map _ _ rfl _ hw.shutters k
    rw [this]
    exact (h.shutters k).tick

theorem paramMove_fire (s : State) (q : Param) (v : Nat) :
    (((s.putParam q v).paramEffect q).zones, ((s.putParam q v).paramEffect q).shutters) = (s.zones, s.shutters) := by
  obtain ⟨st, ls, h⟩ := putParam_eq s q v
  cases q with
  | crane c r => cases r <;> simp [State.paramEffect, State.dropPhase, h]
  | _ => simp [State.paramEffect, State.trimCursor, h]

theorem Move.keeps_fireSound {s t : State} (m : Move s t) (hw : TablesWf s) (h : FireSound s) : FireSound t := by
  cases m with
  | zone z r hr =>
    refine ⟨fun y => ?_, fun k => by simpa using h.shutters k⟩
    rw [State.setZone_zone]
    split
    · exact hr (h.zones z)
    · exact h.zones y
  | shutter k r hr =>
    refine ⟨fun z => by simpa using h.zones z, fun y => ?_⟩
    rw [State.setShutter_shutter]
    split
    · exact hr (h.shutters k)
    · exact h.shutters y
  | warm l | cold l => exact .atStart rfl rfl
  | elapse => exact h.elapse hw
  | param q v => exact h.same (paramMove_fire s q _)
  | rsv => exact h.same (rsv_leaves (g := fun u => (u.zones, u.shutters)) (by simp) (by simp) ..)
  | rel => exact h.same (rel_leaves (g := fun u => (u.zones, u.shutters)) (by simp) (by simp) ..)
  | frel => exact h.same (frel_leaves (g := fun u => (u.zones, u.shutters)) (by simp) (by simp) ..)
  | sealZone => exact h.same (sealZone_leaves (g := fun u => (u.zones, u.shutters)) (by simp) ..)
  | unsealZone => exact h.same (unsealZone_leaves (g := fun u => (u.zones, u.shutters)) (by simp) ..)
  | restart c => exact h.same (by simp [restartKeepalive_eq])
  | envelope c =>
    obtain ⟨r, e⟩ := takeEnvelope_eq s c
    exact h.same (by simp [e])
  | trip | unreference | home | keepalive | creep | clearTrip | refresh =>
    exact h.same (by
      simp [State.refreshPermit, State.unreference, State.captureHome, State.setKeepalive, State.setCreep, State.clearTrip])
  | bin | cell | bay | slot | counter | loop | sched | manual | gen | crane | port | power | coldStart =>
    exact h.same (by simp)

theorem pending_crane (s : State) (l : List Instr) (x : Crane) : ({ s with pending := l } : State).crane x = s.crane x := by
  cases x <;> rfl

theorem pending_port (s : State) (l : List Instr) (p : Port) : ({ s with pending := l } : State).port p = s.port p := by
  cases p <;> rfl

/-- Settles O3: each part is kept by every move, the scheduler with the settings and the zones and shutters with the tables. -/
theorem stepKeepsEveryRecordSound : Obligations.StepKeepsEveryRecordSound := by
  refine ⟨fun s t h e => ?_, fun s t h e c => ?_, fun s t h e p => ?_, fun s t h e => ?_, fun s t hs h e => ?_,
    fun s t hw h e => ?_⟩
  · rw [tablesWf_iff] at h ⊢
    exact step_keeps (P := TablesWf) (fun u l h => { h with }) (fun u v m h => m.keeps_tablesWf h) h e
  · exact step_keeps (P := fun u => ∀ c, TripSound (u.crane c))
      (fun u l h x => by rw [pending_crane]; exact h x) (fun u v m h => m.keeps_tripSound h) h e c
  · exact step_keeps (P := fun u => ∀ p, PortSound (u.port p))
      (fun u l h x => by rw [pending_port]; exact h x) (fun u v m h => m.keeps_portSound h) h e p
  · exact step_keeps (P := SettingsSound) (fun u l h => h.of_settings rfl) (fun u v m h => m.keeps_settingsSound h) h e
  · have hboth := step_keeps (P := fun u => SettingsSound u ∧ SchedSound u)
      (fun u l h => ⟨h.1.of_settings rfl, h.2.same rfl⟩)
      (fun u v m h => ⟨m.keeps_settingsSound h.1, m.keeps_schedSound h.1 h.2⟩) ⟨hs, h⟩ e
    exact hboth.2
  · rw [tablesWf_iff] at hw
    have hboth := step_keeps (P := fun u => TablesWf u ∧ FireSound u)
      (fun u l h => ⟨{ h.1 with }, h.2.same rfl⟩)
      (fun u v m h => ⟨m.keeps_tablesWf h.1, m.keeps_fireSound h.1 h.2⟩) ⟨hw, h⟩ e
    exact hboth.2

end Sys2Proof.Machine

end

/-! # Requests in general (R189 to R197) -/

section

namespace Sys2Proof.Machine

/-! ## Every owner takes the request or refuses it unchanged (00_scope 4.2.7) -/

/-- An answer that takes the request, or refuses it and leaves the state. -/
def Replies (s : State) (r : State × Reply) : Prop := (∃ u fields, r = (u, .ack fields)) ∨ ∃ reason d, r = (s, .nak reason d)

theorem replies_ack (s u : State) (f : List Field) : Replies s (u, .ack f) := .inl ⟨u, f, rfl⟩

theorem replies_refuse (s : State) (r : Reason) : Replies s (refuse s r) := .inr ⟨r, none, rfl⟩

theorem replies_refuseDetail (s : State) (r : Reason) (d : Nat) : Replies s (refuseDetail s r d) := .inr ⟨r, some d, rfl⟩

theorem onCrane_replies {p : Port} {s : State} {f : Crane → State × Reply} (h : ∀ c, Replies s (f c)) : Replies s (onCrane p s f) := by
  unfold onCrane
  split
  · exact h _
  · exact replies_refuse ..

theorem withActive_replies {s : State} {c : Crane} {h : Handle} {f : Order → State × Reply} (hf : ∀ o, Replies s (f o)) :
    Replies s (withActive s c h f) := by
  unfold withActive
  split
  · exact replies_refuse ..
  · exact hf _

theorem stat_replies (p : Port) (a : Unit) (s : State) : Replies s (ownStat p a s) := replies_ack ..

theorem rdbin_replies (a : Nat) (s : State) : Replies s (ownRdbin a s) := by
  unfold ownRdbin
  split
  · exact replies_ack ..
  · exact replies_refuse ..

theorem rdcell_replies (a : Nat) (s : State) : Replies s (ownRdcell a s) := by
  unfold ownRdcell
  split
  · exact replies_ack ..
  · exact replies_refuse ..

theorem rdord_replies (a : Nat × Nat) (s : State) : Replies s (ownRdord a s) := by
  unfold ownRdord
  split
  · dsimp only
    split
    · exact replies_ack ..
    · split <;> exact replies_ack ..
  · exact replies_refuse ..

theorem rdcrn_replies (a : Nat) (s : State) : Replies s (ownRdcrn a s) := by
  unfold ownRdcrn
  split
  · exact replies_refuse ..
  · exact replies_ack ..

theorem rdseg_replies (a : Nat) (s : State) : Replies s (ownRdseg a s) := by
  unfold ownRdseg
  split
  · exact replies_ack ..
  · exact replies_refuse ..

theorem rdzone_replies (a : ZoneRead) (s : State) : Replies s (ownRdzone a s) := by
  unfold ownRdzone
  split
  · exact replies_ack ..
  · exact replies_refuse ..

theorem fetchAtBay_replies (s : State) (b : Nat) (st : Station) (bay : Nat) (picks : List Nat) :
    Replies s (s.fetchAtBay b st bay picks) := by
  unfold State.fetchAtBay
  dsimp only
  split
  · exact replies_ack ..
  · split
    · exact replies_refuse ..
    · exact replies_ack ..

theorem fetchStored_replies (s : State) (b : Nat) (st : Station) (picks : List Nat) (loan : BitVec 32) :
    Replies s (s.fetchStored b st picks loan) := by
  unfold State.fetchStored
  split
  · exact replies_refuse ..
  · split <;> try exact replies_refuse ..
    split
    · exact replies_refuseDetail ..
    · split
      · exact replies_refuse ..
      · split
        · exact replies_refuse ..
        · exact replies_ack ..

theorem fetch_replies (a : FetchArgs) (s : State) : Replies s (ownFetch a s) := by
  unfold ownFetch
  split
  · exact replies_refuse ..
  · split
    · unfold State.fetch
      split
      · exact replies_refuseDetail ..
      · split
        · exact replies_refuse ..
        · split
          · exact replies_refuseDetail ..
          · split
            · split
              · exact fetchAtBay_replies ..
              · exact replies_refuse ..
            all_goals exact fetchStored_replies ..
    · exact replies_refuse ..

theorem deskRequest_replies (b : Bool) (x y : Comp) (f : Nat → State → State) (a : Nat × Nat) (s : State) :
    Replies s (deskRequest b x y f a s) := by
  unfold deskRequest
  split
  · exact replies_refuse ..
  · split
    · exact replies_refuse ..
    · split
      · exact replies_refuseDetail ..
      · exact replies_ack ..

theorem slotFetch_replies (s : State) (st : Station) : Replies s (s.slotFetch st) := by
  unfold State.slotFetch
  split
  · exact replies_ack ..
  · split
    · exact replies_ack ..
    · split
      · exact replies_refuse ..
      · split
        · exact replies_refuse ..
        · exact replies_ack ..

theorem slot_replies (a : Nat) (s : State) : Replies s (ownSlot a s) := by
  unfold ownSlot
  split
  · exact replies_refuse ..
  · unfold State.allocSlot
    split
    · exact replies_ack ..
    · split
      · exact replies_ack ..
      · exact slotFetch_replies ..

theorem relbay_replies (a : Nat × Nat) (s : State) : Replies s (ownRelbay a s) := by
  unfold ownRelbay
  split
  · exact replies_refuse ..
  · split
    · exact replies_ack ..
    · exact replies_refuse ..

theorem cancel_replies (a : Nat × Nat) (s : State) : Replies s (ownCancel a s) := by
  unfold ownCancel
  dsimp only
  split
  · exact replies_refuse ..
  · split
    · exact replies_refuse ..
    · split
      · exact replies_ack ..
      · exact replies_refuse ..

theorem serviceCancel_replies (a : Nat × Nat) (s : State) : Replies s (ownServiceCancel a s) := by
  unfold ownServiceCancel
  dsimp only
  split
  · exact replies_refuse ..
  · split
    · exact replies_refuse ..
    · exact replies_ack ..

theorem orderForm_ack (b : Bool) (h : Handle) (o : Order) : ∃ f, orderForm b h o = .ack f := ⟨_, rfl⟩

theorem orderFormAt_replies (s u : State) (b : Bool) (i : Nat) : Replies s (u, u.orderFormAt b i) := by
  unfold State.orderFormAt
  split
  · exact replies_ack ..
  · exact replies_ack ..

theorem next_replies (p : Port) (a : Nat) (s : State) : Replies s (ownNext p a s) := by
  unfold ownNext
  split
  · refine onCrane_replies (fun c => ?_)
    unfold State.next
    dsimp only
    split
    · unfold State.orderFormAt
      split
      · exact replies_ack ..
      · exact replies_ack ..
    · split
      · unfold State.nextOrphan
        split
        · exact orderFormAt_replies ..
        · exact replies_ack ..
      · unfold State.nextSelect
        split
        · exact orderFormAt_replies ..
        · unfold State.nextVerify
          split
          · exact replies_ack ..
          · split
            · exact replies_ack ..
            · exact orderFormAt_replies ..
  · exact replies_refuse ..

theorem loadFrom_replies (s : State) (c : Crane) (i : Nat) (o : Order) (b : Nat) : Replies s (s.loadFrom c i o b) := by
  unfold State.loadFrom
  split
  · split
    · exact replies_ack ..
    · exact replies_refuse ..
  · split
    · exact replies_ack ..
    · exact replies_refuse ..
  · exact replies_refuse ..
  · exact replies_refuse ..

theorem load_replies (p : Port) (a : Nat × Nat) (s : State) : Replies s (ownLoad p a s) := by
  unfold ownLoad
  split
  · refine onCrane_replies (fun c => withActive_replies (fun o => ?_))
    split
    · exact replies_ack ..
    · exact loadFrom_replies ..
    · exact replies_refuse ..
    · exact replies_refuse ..
  · exact replies_refuse ..

theorem doneFetch_replies (s : State) (c : Crane) (h : Handle) (o : Order) (b : Nat) : Replies s (s.doneFetch c h o b) := by
  unfold State.doneFetch
  split
  · exact replies_refuse ..
  · exact replies_ack ..

theorem doneStow_replies (s : State) (c : Crane) (h : Handle) (o : Order) (b : Nat) (cell : Option Nat) :
    Replies s (s.doneStow c h o b cell) := by
  unfold State.doneStow
  split
  · exact replies_refuse ..
  · split
    · exact replies_refuse ..
    · split
      · exact replies_refuse ..
      · exact replies_ack ..

theorem done_replies (p : Port) (a : ReportArgs) (s : State) : Replies s (ownDone p a s) := by
  unfold ownDone
  split
  · refine onCrane_replies (fun c => ?_)
    unfold State.doneReport
    split
    · split
      · split
        · exact replies_refuse ..
        · exact doneFetch_replies ..
      · exact doneStow_replies ..
      · exact doneStow_replies ..
      · exact replies_refuse ..
    · split
      · exact replies_ack ..
      · exact replies_refuse ..
  · exact replies_refuse ..

theorem unableBlocked_replies (s : State) (i : Nat) (o : Order) (cell : Option Nat) : Replies s (s.unableBlocked i o cell) := by
  unfold State.unableBlocked
  split
  · exact replies_ack ..
  · split
    · exact replies_ack ..
    · exact replies_refuse ..

theorem unableOccupied_replies (s : State) (i : Nat) (o : Order) (cell : Option Nat) : Replies s (s.unableOccupied i o cell) := by
  unfold State.unableOccupied
  split
  · exact replies_refuse ..
  · split
    · exact replies_refuse ..
    · exact replies_ack ..

theorem unableEmpty_replies (s : State) (i : Nat) (o : Order) (cell : Option Nat) : Replies s (s.unableEmpty i o cell) := by
  unfold State.unableEmpty
  split
  · split
    · exact replies_refuse ..
    · exact replies_ack ..
  all_goals exact replies_refuse ..

theorem unable_replies (p : Port) (a : ReportArgs) (s : State) : Replies s (ownUnable p a s) := by
  unfold ownUnable
  split
  · exact replies_refuse ..
  · split
    · refine onCrane_replies (fun c => withActive_replies (fun o => ?_))
      split
      · unfold State.unableDispatched
        split
        · exact unableEmpty_replies ..
        · exact replies_refuse ..
        · exact unableBlocked_replies ..
        · exact replies_ack ..
        · exact replies_ack ..
      · unfold State.unableLoaded
        split
        · exact replies_refuse ..
        · exact replies_refuse ..
        · exact replies_ack ..
        · exact unableOccupied_replies ..
        · exact unableBlocked_replies ..
        · exact replies_ack ..
        · exact replies_ack ..
      · exact replies_refuse ..
    · exact replies_refuse ..

theorem tag_replies (p : Port) (a : TagArgs) (s : State) : Replies s (ownTag p a s) := by
  unfold ownTag
  split
  · refine onCrane_replies (fun c => ?_)
    unfold State.tag
    split
    · exact replies_refuse ..
    · split
      · exact replies_refuse ..
      · split
        · exact replies_ack ..
        · exact replies_refuse ..
  · exact replies_refuse ..

theorem rsv_replies (p : Port) (a : Nat × Nat) (s : State) : Replies s (ownRsv p a s) := by
  unfold ownRsv
  split
  · refine onCrane_replies (fun c => ?_)
    rcases rsv_cases s c a.1 a.2 with ⟨r, d, e⟩ | ⟨-, -, -, -, -, -, e⟩
    · exact .inr ⟨r, d, e⟩
    · exact .inl ⟨_, _, e⟩
  · exact replies_refuse ..

theorem rel_replies (p : Port) (a : Nat × Nat) (s : State) : Replies s (ownRel p a s) := by
  unfold ownRel
  split
  · refine onCrane_replies (fun c => ?_)
    rcases rel_cases s c a.1 a.2 with ⟨r, d, e⟩ | ⟨-, -, -, -, -, e⟩
    · exact .inr ⟨r, d, e⟩
    · exact .inl ⟨_, _, e⟩
  · exact replies_refuse ..

theorem frel_replies (a : Nat × Nat × Nat) (s : State) : Replies s (ownFrel a s) := by
  unfold ownFrel
  split
  · exact replies_refuse ..
  · next c hc =>
    split
    · rcases frel_cases s c a.2.1 a.2.2 with ⟨r, d, e⟩ | ⟨-, -, -, -, -, e⟩
      · exact .inr ⟨r, d, e⟩
      · exact .inl ⟨_, _, e⟩
    · exact replies_refuse ..

theorem clrt_replies (p : Port) (a : Unit) (s : State) : Replies s (ownClrt p a s) := by
  refine onCrane_replies (fun c => ?_)
  unfold State.clrt
  split
  · exact replies_ack ..
  · split
    · exact replies_refuseDetail ..
    · exact replies_ack ..

theorem keep_replies (p : Port) (a : Nat) (s : State) : Replies s (ownKeep p a s) := by
  unfold ownKeep
  split
  · exact replies_refuse ..
  · exact onCrane_replies (fun c => replies_ack ..)

theorem assign_replies (a : Nat × Option Nat) (s : State) : Replies s (ownAssign a s) := by
  unfold ownAssign
  split
  · exact replies_refuse ..
  · split
    · exact replies_refuse ..
    · split
      · exact replies_refuse ..
      · exact replies_ack ..

theorem toUnverified_replies (x : CellState) (a : Nat) (s : State) : Replies s (ownToUnverified x a s) := by
  unfold ownToUnverified
  split
  · exact replies_refuse ..
  · split
    · exact replies_ack ..
    · exact replies_refuse ..

theorem block_replies (a : Nat) (s : State) : Replies s (ownBlock a s) := by
  unfold ownBlock
  split
  · exact replies_refuse ..
  · split
    · exact replies_ack ..
    · exact replies_refuse ..

theorem quar_replies (v : Bool) (a : Nat) (s : State) : Replies s (ownQuar v a s) := by
  unfold ownQuar
  split
  · exact replies_refuse ..
  · exact replies_ack ..

theorem setcmp_replies (a : Nat × List Nat) (s : State) : Replies s (ownSetcmp a s) := by
  unfold ownSetcmp
  split
  · exact replies_refuse ..
  · split
    · exact replies_refuse ..
    · split
      · exact replies_refuse ..
      · exact replies_ack ..

theorem move_replies (a : Nat × Nat × Nat) (s : State) : Replies s (ownMove a s) := by
  unfold ownMove
  split
  · exact replies_refuse ..
  · split
    · exact replies_refuse ..
    · split
      · exact replies_refuse ..
      · split
        · exact replies_refuse ..
        · split
          · exact replies_refuse ..
          · split
            · exact replies_refuse ..
            · exact replies_ack ..

theorem stop_replies (a : Nat) (s : State) : Replies s (ownStop a s) := by
  unfold ownStop
  split
  · exact replies_refuse ..
  · exact replies_ack ..

theorem creep_replies (v : Bool) (a : Nat) (s : State) : Replies s (ownCreep v a s) := by
  unfold ownCreep
  split
  · exact replies_refuse ..
  · exact replies_ack ..

theorem whold_replies (a : List Nat) (s : State) : Replies s (ownWhold a s) := by
  unfold ownWhold
  split
  · exact replies_refuse ..
  · split
    · exact replies_refuse ..
    · exact replies_ack ..

theorem frst_replies (a : Nat) (s : State) : Replies s (ownFrst a s) := by
  unfold ownFrst
  split
  · exact replies_refuse ..
  · split
    · exact replies_refuseDetail ..
    · split
      · exact replies_refuseDetail ..
      · exact replies_ack ..

theorem sopen_replies (a : Nat) (s : State) : Replies s (ownSopen a s) := by
  unfold ownSopen
  split
  · unfold State.sopen
    dsimp only
    split
    · split <;> exact replies_ack ..
    · split
      · exact replies_refuseDetail ..
      · exact replies_ack ..
    all_goals exact replies_refuseDetail ..
  · exact replies_refuse ..

theorem set_replies (a : Nat × Nat) (s : State) : Replies s (ownSet a s) := by
  unfold ownSet
  split
  · exact replies_refuse ..
  · unfold State.setParam
    split
    · exact replies_refuse ..
    · split
      · exact replies_refuse ..
      · split
        · exact replies_refuse ..
        · exact replies_ack ..

/-! ## What a body can be refused for (R197 step 4) -/

/-- A reader that refuses with LENGTH or RANGE alone. -/
def ReaderRefuses {α : Type} (r : BodyReader α) : Prop := ∀ l e, r l = .error e → e = .length ∨ e = .range

theorem refuses_pure {α : Type} (a : α) : ReaderRefuses (pure a) := by
  intro l e h
  cases h

theorem refuses_throw {α : Type} {e : Reason} (he : e = .length ∨ e = .range) : ReaderRefuses (throw e : BodyReader α) := by
  rintro l e' ⟨⟩
  exact he

theorem refuses_bind {α β : Type} {r : BodyReader α} {f : α → BodyReader β} (hr : ReaderRefuses r) (hf : ∀ a, ReaderRefuses (f a)) :
    ReaderRefuses (r >>= f) := by
  intro l e h
  change (r l >>= fun p => f p.1 p.2) = _ at h
  cases hl : r l with
  | error e' =>
    rw [hl] at h
    cases h
    exact hr l _ hl
  | ok p =>
    rw [hl] at h
    exact hf p.1 p.2 e h

theorem readNum_refuses (w : Nat) : ReaderRefuses (readNum w) := by
  induction w with
  | zero => exact refuses_pure 0
  | succ w ih =>
    intro l e h
    cases l with
    | nil =>
      cases h
      exact .inl rfl
    | cons b rest =>
      rw [readNum_cons] at h
      cases hr : readNum w rest with
      | error e' =>
        rw [hr] at h
        cases h
        exact ih rest _ hr
      | ok a =>
        rw [hr] at h
        cases h

theorem readEntries_refuses (n : Nat) : ReaderRefuses (readEntries n) := by
  induction n with
  | zero => exact refuses_pure []
  | succ n ih => exact refuses_bind (readNum_refuses 1) (fun _ => refuses_bind ih (fun _ => refuses_pure _))

theorem readList_refuses : ReaderRefuses readList := refuses_bind (readNum_refuses 1) readEntries_refuses

theorem readOptCell_refuses : ReaderRefuses readOptCell := by
  refine refuses_bind (readNum_refuses 1) (fun n => ?_)
  split
  · exact refuses_pure _
  · exact refuses_bind (readNum_refuses 2) (fun _ => refuses_pure _)
  · exact refuses_throw (.inr rfl)

theorem readResult_refuses : ReaderRefuses readResult := by
  refine refuses_bind (readNum_refuses 1) (fun n => ?_)
  split
  · exact refuses_bind (readNum_refuses 2) (fun _ => refuses_pure _)
  · exact refuses_pure _
  · exact refuses_pure _
  · exact refuses_throw (.inr rfl)

theorem readBody_refuses {α : Type} {r : BodyReader α} (h : ReaderRefuses r) {body : List Byte} {e : Reason}
    (hb : readBody r body = .error e) : e = .length ∨ e = .range := by
  unfold readBody at hb
  split at hb
  · cases hb
  · cases hb
    exact .inl rfl
  · next e' he =>
    cases hb
    exact h body _ he

/-- A body reader that refuses with LENGTH or RANGE alone. -/
def BodyRefuses {α : Type} (read : List Byte → Except Reason α) : Prop := ∀ body e, read body = .error e → e = .length ∨ e = .range

theorem bodyNone_refuses : BodyRefuses bodyNone := fun _ _ => readBody_refuses (refuses_pure _)

theorem bodyNum_refuses (w : Nat) : BodyRefuses (bodyNum w) := fun _ _ => readBody_refuses (readNum_refuses w)

theorem bodyNum2_refuses (v w : Nat) : BodyRefuses (bodyNum2 v w) := fun _ _ =>
  readBody_refuses (refuses_bind (readNum_refuses v) (fun _ => refuses_bind (readNum_refuses w) (fun _ => refuses_pure _)))

theorem bodyNum3_refuses (u v w : Nat) : BodyRefuses (bodyNum3 u v w) := fun _ _ =>
  readBody_refuses (refuses_bind (readNum_refuses u) (fun _ => refuses_bind (readNum_refuses v)
    (fun _ => refuses_bind (readNum_refuses w) (fun _ => refuses_pure _))))

theorem bodyFetch_refuses : BodyRefuses bodyFetch := fun _ _ =>
  readBody_refuses (refuses_bind (readNum_refuses 2) (fun _ => refuses_bind (readNum_refuses 1)
    (fun _ => refuses_bind readList_refuses (fun _ => refuses_bind (readNum_refuses 4)
      (fun _ => refuses_bind (readNum_refuses 1) (fun _ => refuses_pure _))))))

theorem bodyDone_refuses : BodyRefuses bodyDone := fun _ _ =>
  readBody_refuses (refuses_bind (readNum_refuses 1) (fun _ => refuses_bind (readNum_refuses 1)
    (fun _ => refuses_bind readOptCell_refuses (fun _ => refuses_pure _))))

theorem bodyUnable_refuses : BodyRefuses bodyUnable := fun _ _ =>
  readBody_refuses (refuses_bind (readNum_refuses 1) (fun _ => refuses_bind (readNum_refuses 1)
    (fun _ => refuses_bind (readNum_refuses 1) (fun _ => refuses_bind readOptCell_refuses (fun _ => refuses_pure _)))))

theorem bodyTag_refuses : BodyRefuses bodyTag := fun _ _ =>
  readBody_refuses (refuses_bind (readNum_refuses 1) (fun _ => refuses_bind (readNum_refuses 1)
    (fun _ => refuses_bind readResult_refuses (fun _ => refuses_pure _))))

theorem bodyAssign_refuses : BodyRefuses bodyAssign := fun _ _ =>
  readBody_refuses (refuses_bind (readNum_refuses 2) (fun _ => refuses_bind readOptCell_refuses (fun _ => refuses_pure _)))

theorem bodySetcmp_refuses : BodyRefuses bodySetcmp := fun _ _ =>
  readBody_refuses (refuses_bind (readNum_refuses 2) (fun _ => refuses_bind readList_refuses (fun _ => refuses_pure _)))

theorem bodyZones_refuses : BodyRefuses bodyZones := fun _ _ => readBody_refuses readList_refuses

theorem bodySet_refuses : BodyRefuses bodySet := fun _ _ => by
  refine readBody_refuses (refuses_bind (readNum_refuses 1) (fun code => ?_))
  split
  · exact refuses_throw (.inr rfl)
  · exact refuses_bind (readNum_refuses _) (fun _ => refuses_pure _)

theorem map_refuses {α β : Type} {read : List Byte → Except Reason α} (h : BodyRefuses read) (f : α → β) :
    BodyRefuses (fun body => (read body).map f) := by
  intro body e he
  cases hr : read body with
  | error e' =>
    simp only [hr, Except.map, Except.error.injEq] at he
    subst he
    exact h body _ hr
  | ok a => simp [hr, Except.map] at he

/-! ## How every request is served -/

/-- How a request command is served (R197): the body it is read from, the owner that answers it, and the command that a body
spells. -/
structure Service (c : Instr) (p : Port) (k : Kind) (α : Type) where
  read : List Byte → Except Reason α
  args : α
  owner : α → State → State × Reply
  spell : α → Instr
  exec_eq : ∀ s, exec c s = serve p k read args owner (k == .whold) s
  spell_exec : ∀ body a s, read body = .ok a → exec (spell a) s = serve p k read a owner (k == .whold) s
  spelled : ∀ body, commandOf p k (pinLevel c) body = (read body).map spell
  replies : ∀ a s, Replies s (owner a s)
  refuses : BodyRefuses read

theorem service_stat (p : Port) : ∃ α, Nonempty (Service (.stat p) p .stat α) :=
  ⟨_, ⟨bodyNone, (), ownStat p, fun _ => .stat p, fun _ => rfl, fun _ _ _ _ => rfl, fun _ => rfl, stat_replies p,
    bodyNone_refuses⟩⟩

theorem service_rdbin (p : Port) (n : Nat) : ∃ α, Nonempty (Service (.rdbin p n) p .rdbin α) :=
  ⟨_, ⟨bodyNum 2, n, ownRdbin, .rdbin p, fun _ => rfl, fun _ _ _ _ => rfl, fun _ => rfl, rdbin_replies, bodyNum_refuses 2⟩⟩

theorem service_rdcell (p : Port) (n : Nat) : ∃ α, Nonempty (Service (.rdcell p n) p .rdcell α) :=
  ⟨_, ⟨bodyNum 2, n, ownRdcell, .rdcell p, fun _ => rfl, fun _ _ _ _ => rfl, fun _ => rfl, rdcell_replies, bodyNum_refuses 2⟩⟩

theorem service_rdord (p : Port) (a : Nat) (b : Nat) : ∃ α, Nonempty (Service (.rdord p a b) p .rdord α) :=
  ⟨_, ⟨bodyNum2 1 1, (a, b), ownRdord, fun x => .rdord p x.1 x.2, fun _ => rfl, fun _ _ _ _ => rfl, fun _ => rfl,
    rdord_replies, bodyNum2_refuses 1 1⟩⟩

theorem service_rdcrn (p : Port) (n : Nat) : ∃ α, Nonempty (Service (.rdcrn p n) p .rdcrn α) :=
  ⟨_, ⟨bodyNum 1, n, ownRdcrn, .rdcrn p, fun _ => rfl, fun _ _ _ _ => rfl, fun _ => rfl, rdcrn_replies, bodyNum_refuses 1⟩⟩

theorem service_rdseg (p : Port) (n : Nat) : ∃ α, Nonempty (Service (.rdseg p n) p .rdseg α) :=
  ⟨_, ⟨bodyNum 1, n, ownRdseg, .rdseg p, fun _ => rfl, fun _ _ _ _ => rfl, fun _ => rfl, rdseg_replies, bodyNum_refuses 1⟩⟩

theorem service_rdzone (p : Port) (r : ZoneRead) : ∃ α, Nonempty (Service (.rdzone p r) p .rdzone α) := by
  refine ⟨ZoneRead, ⟨fun body => (bodyNum 1 body).map (fun z => ⟨z, r.manualRelease⟩), r, ownRdzone, .rdzone p, fun _ => rfl,
    fun body a s ha => ?_, fun body => ?_, rdzone_replies, map_refuses (bodyNum_refuses 1) _⟩⟩
  · cases hb : bodyNum 1 body with
    | error e => simp [hb, Except.map] at ha
    | ok z =>
      simp only [hb, Except.map, Except.ok.injEq] at ha
      subst ha
      rfl
  · change (bodyNum 1 body).map _ = ((bodyNum 1 body).map _).map _
    cases bodyNum 1 body <;> rfl

theorem service_fetch (p : Port) (a : Nat) (b : Nat) (l : List Nat) (n : BitVec 32) (m : Nat) :
    ∃ α, Nonempty (Service (.fetch p a b l n m) p .fetch α) :=
  ⟨_, ⟨bodyFetch, ⟨a, b, l, n, m⟩, ownFetch, fun x => .fetch p x.bin x.station x.picks x.loan x.authority, fun _ => rfl,
    fun _ _ _ _ => rfl, fun _ => rfl, fetch_replies, bodyFetch_refuses⟩⟩

theorem service_pick (p : Port) (a : Nat) (b : Nat) : ∃ α, Nonempty (Service (.pick p a b) p .pick α) :=
  ⟨_, ⟨bodyNum2 2 1, (a, b), ownPick, fun x => .pick p x.1 x.2, fun _ => rfl, fun _ _ _ _ => rfl, fun _ => rfl,
    deskRequest_replies _ _ _ _, bodyNum2_refuses 2 1⟩⟩

theorem service_unpick (p : Port) (a : Nat) (b : Nat) : ∃ α, Nonempty (Service (.unpick p a b) p .unpick α) :=
  ⟨_, ⟨bodyNum2 2 1, (a, b), ownUnpick, fun x => .unpick p x.1 x.2, fun _ => rfl, fun _ _ _ _ => rfl, fun _ => rfl,
    deskRequest_replies _ _ _ _, bodyNum2_refuses 2 1⟩⟩

theorem service_slot (p : Port) (n : Nat) : ∃ α, Nonempty (Service (.slot p n) p .slot α) :=
  ⟨_, ⟨bodyNum 1, n, ownSlot, .slot p, fun _ => rfl, fun _ _ _ _ => rfl, fun _ => rfl, slot_replies, bodyNum_refuses 1⟩⟩

theorem service_place (p : Port) (a : Nat) (b : Nat) : ∃ α, Nonempty (Service (.place p a b) p .place α) :=
  ⟨_, ⟨bodyNum2 2 1, (a, b), ownPlace, fun x => .place p x.1 x.2, fun _ => rfl, fun _ _ _ _ => rfl, fun _ => rfl,
    deskRequest_replies _ _ _ _, bodyNum2_refuses 2 1⟩⟩

theorem service_unclaim (p : Port) (a : Nat) (b : Nat) : ∃ α, Nonempty (Service (.unclaim p a b) p .unclaim α) :=
  ⟨_, ⟨bodyNum2 2 1, (a, b), ownUnclaim, fun x => .unclaim p x.1 x.2, fun _ => rfl, fun _ _ _ _ => rfl, fun _ => rfl,
    deskRequest_replies _ _ _ _, bodyNum2_refuses 2 1⟩⟩

theorem service_relbay (p : Port) (a : Nat) (b : Nat) : ∃ α, Nonempty (Service (.relbay p a b) p .relbay α) :=
  ⟨_, ⟨bodyNum2 1 1, (a, b), ownRelbay, fun x => .relbay p x.1 x.2, fun _ => rfl, fun _ _ _ _ => rfl, fun _ => rfl,
    relbay_replies, bodyNum2_refuses 1 1⟩⟩

theorem service_cancel (p : Port) (a : Nat) (b : Nat) : ∃ α, Nonempty (Service (.cancel p a b) p .cancel α) := by
  by_cases hp : p = .S
  · subst hp
    exact ⟨_, ⟨bodyNum2 1 1, (a, b), ownServiceCancel, fun x => .cancelOnPortS x.1 x.2, fun _ => rfl, fun _ _ _ _ => rfl,
      fun _ => rfl, serviceCancel_replies, bodyNum2_refuses 1 1⟩⟩
  · refine ⟨_, ⟨bodyNum2 1 1, (a, b), ownCancel, fun x => .cancel p x.1 x.2, fun _ => ?_, fun _ _ _ _ => ?_,
      fun body => ?_, cancel_replies, bodyNum2_refuses 1 1⟩⟩
    · exact if_neg hp
    · exact if_neg hp
    · simp only [commandOf, if_neg hp]

theorem service_cancelOnPortS (a : Nat) (b : Nat) : ∃ α, Nonempty (Service (.cancelOnPortS a b) .S .cancel α) :=
  ⟨_, ⟨bodyNum2 1 1, (a, b), ownServiceCancel, fun x => .cancelOnPortS x.1 x.2, fun _ => rfl, fun _ _ _ _ => rfl,
    fun _ => rfl, serviceCancel_replies, bodyNum2_refuses 1 1⟩⟩

theorem service_nextWork (p : Port) (n : Nat) : ∃ α, Nonempty (Service (.nextWork p n) p .next α) :=
  ⟨_, ⟨bodyNum 1, n, ownNext p, .nextWork p, fun _ => rfl, fun _ _ _ _ => rfl, fun _ => rfl, next_replies p, bodyNum_refuses 1⟩⟩

theorem service_load (p : Port) (a : Nat) (b : Nat) : ∃ α, Nonempty (Service (.load p a b) p .load α) :=
  ⟨_, ⟨bodyNum2 1 1, (a, b), ownLoad p, fun x => .load p x.1 x.2, fun _ => rfl, fun _ _ _ _ => rfl, fun _ => rfl,
    load_replies p, bodyNum2_refuses 1 1⟩⟩

theorem service_done (p : Port) (a : Nat) (b : Nat) (c : Option Nat) : ∃ α, Nonempty (Service (.done p a b c) p .done α) :=
  ⟨_, ⟨bodyDone, ⟨a, b, 0, c⟩, ownDone p, fun x => .done p x.slot x.gen x.cell, fun _ => rfl, fun _ _ _ _ => rfl,
    fun _ => rfl, done_replies p, bodyDone_refuses⟩⟩

theorem service_unable (p : Port) (a : Nat) (b : Nat) (n : Nat) (c : Option Nat) :
    ∃ α, Nonempty (Service (.unable p a b n c) p .unable α) :=
  ⟨_, ⟨bodyUnable, ⟨a, b, n, c⟩, ownUnable p, fun x => .unable p x.slot x.gen x.reason x.cell, fun _ => rfl,
    fun _ _ _ _ => rfl, fun _ => rfl, unable_replies p, bodyUnable_refuses⟩⟩

theorem service_tag (p : Port) (a : Nat) (b : Nat) (r : TagResult) : ∃ α, Nonempty (Service (.tag p a b r) p .tag α) :=
  ⟨_, ⟨bodyTag, ⟨a, b, r⟩, ownTag p, fun x => .tag p x.slot x.gen x.result, fun _ => rfl, fun _ _ _ _ => rfl, fun _ => rfl,
    tag_replies p, bodyTag_refuses⟩⟩

theorem service_rsv (p : Port) (a : Nat) (b : Nat) : ∃ α, Nonempty (Service (.rsv p a b) p .rsv α) :=
  ⟨_, ⟨bodyNum2 1 1, (a, b), ownRsv p, fun x => .rsv p x.1 x.2, fun _ => rfl, fun _ _ _ _ => rfl, fun _ => rfl,
    rsv_replies p, bodyNum2_refuses 1 1⟩⟩

theorem service_rel (p : Port) (a : Nat) (b : Nat) : ∃ α, Nonempty (Service (.rel p a b) p .rel α) :=
  ⟨_, ⟨bodyNum2 1 1, (a, b), ownRel p, fun x => .rel p x.1 x.2, fun _ => rfl, fun _ _ _ _ => rfl, fun _ => rfl,
    rel_replies p, bodyNum2_refuses 1 1⟩⟩

theorem service_clrt (p : Port) : ∃ α, Nonempty (Service (.clrt p) p .clrt α) :=
  ⟨_, ⟨bodyNone, (), ownClrt p, fun _ => .clrt p, fun _ => rfl, fun _ _ _ _ => rfl, fun _ => rfl, clrt_replies p,
    bodyNone_refuses⟩⟩

theorem service_keep (p : Port) (n : Nat) : ∃ α, Nonempty (Service (.keep p n) p .keep α) :=
  ⟨_, ⟨bodyNum 1, n, ownKeep p, .keep p, fun _ => rfl, fun _ _ _ _ => rfl, fun _ => rfl, keep_replies p, bodyNum_refuses 1⟩⟩

theorem service_assign (p : Port) (a : Nat) (c : Option Nat) : ∃ α, Nonempty (Service (.assign p a c) p .assign α) :=
  ⟨_, ⟨bodyAssign, (a, c), ownAssign, fun x => .assign p x.1 x.2, fun _ => rfl, fun _ _ _ _ => rfl, fun _ => rfl,
    assign_replies, bodyAssign_refuses⟩⟩

theorem service_clrsus (p : Port) (n : Nat) : ∃ α, Nonempty (Service (.clrsus p n) p .clrsus α) :=
  ⟨_, ⟨bodyNum 2, n, ownToUnverified .suspect, .clrsus p, fun _ => rfl, fun _ _ _ _ => rfl, fun _ => rfl,
    toUnverified_replies _, bodyNum_refuses 2⟩⟩

theorem service_block (p : Port) (n : Nat) : ∃ α, Nonempty (Service (.block p n) p .block α) :=
  ⟨_, ⟨bodyNum 2, n, ownBlock, .block p, fun _ => rfl, fun _ _ _ _ => rfl, fun _ => rfl, block_replies, bodyNum_refuses 2⟩⟩

theorem service_unblk (p : Port) (n : Nat) : ∃ α, Nonempty (Service (.unblk p n) p .unblk α) :=
  ⟨_, ⟨bodyNum 2, n, ownToUnverified .blocked, .unblk p, fun _ => rfl, fun _ _ _ _ => rfl, fun _ => rfl,
    toUnverified_replies _, bodyNum_refuses 2⟩⟩

theorem service_quar (p : Port) (n : Nat) : ∃ α, Nonempty (Service (.quar p n) p .quar α) :=
  ⟨_, ⟨bodyNum 2, n, ownQuar true, .quar p, fun _ => rfl, fun _ _ _ _ => rfl, fun _ => rfl, quar_replies _, bodyNum_refuses 2⟩⟩

theorem service_unquar (p : Port) (n : Nat) : ∃ α, Nonempty (Service (.unquar p n) p .unquar α) :=
  ⟨_, ⟨bodyNum 2, n, ownQuar false, .unquar p, fun _ => rfl, fun _ _ _ _ => rfl, fun _ => rfl, quar_replies _,
    bodyNum_refuses 2⟩⟩

theorem service_setcmp (p : Port) (a : Nat) (l : List Nat) : ∃ α, Nonempty (Service (.setcmp p a l) p .setcmp α) :=
  ⟨_, ⟨bodySetcmp, (a, l), ownSetcmp, fun x => .setcmp p x.1 x.2, fun _ => rfl, fun _ _ _ _ => rfl, fun _ => rfl,
    setcmp_replies, bodySetcmp_refuses⟩⟩

theorem service_move (p : Port) (a : Nat) (b : Nat) (c : Nat) : ∃ α, Nonempty (Service (.move p a b c) p .move α) :=
  ⟨_, ⟨bodyNum3 2 2 1, (a, b, c), ownMove, fun x => .move p x.1 x.2.1 x.2.2, fun _ => rfl, fun _ _ _ _ => rfl,
    fun _ => rfl, move_replies, bodyNum3_refuses 2 2 1⟩⟩

theorem service_frel (p : Port) (a : Nat) (b : Nat) (c : Nat) : ∃ α, Nonempty (Service (.frel p a b c) p .frel α) :=
  ⟨_, ⟨bodyNum3 1 1 1, (a, b, c), ownFrel, fun x => .frel p x.1 x.2.1 x.2.2, fun _ => rfl, fun _ _ _ _ => rfl,
    fun _ => rfl, frel_replies, bodyNum3_refuses 1 1 1⟩⟩

theorem service_stop (p : Port) (n : Nat) : ∃ α, Nonempty (Service (.stop p n) p .stop α) :=
  ⟨_, ⟨bodyNum 1, n, ownStop, .stop p, fun _ => rfl, fun _ _ _ _ => rfl, fun _ => rfl, stop_replies, bodyNum_refuses 1⟩⟩

theorem service_creep (p : Port) (n : Nat) : ∃ α, Nonempty (Service (.creep p n) p .creep α) :=
  ⟨_, ⟨bodyNum 1, n, ownCreep true, .creep p, fun _ => rfl, fun _ _ _ _ => rfl, fun _ => rfl, creep_replies _,
    bodyNum_refuses 1⟩⟩

theorem service_crend (p : Port) (n : Nat) : ∃ α, Nonempty (Service (.crend p n) p .crend α) :=
  ⟨_, ⟨bodyNum 1, n, ownCreep false, .crend p, fun _ => rfl, fun _ _ _ _ => rfl, fun _ => rfl, creep_replies _,
    bodyNum_refuses 1⟩⟩

theorem service_whold (p : Port) (l : List Nat) : ∃ α, Nonempty (Service (.whold p l) p .whold α) :=
  ⟨_, ⟨bodyZones, l, ownWhold, .whold p, fun _ => rfl, fun _ _ _ _ => rfl, fun _ => rfl, whold_replies, bodyZones_refuses⟩⟩

theorem service_wres (p : Port) : ∃ α, Nonempty (Service (.wres p) p .wres α) :=
  ⟨_, ⟨bodyNone, (), ownWres, fun _ => .wres p, fun _ => rfl, fun _ _ _ _ => rfl, fun _ => rfl, fun _ _ => replies_ack ..,
    bodyNone_refuses⟩⟩

theorem service_frst (p : Port) (n : Nat) : ∃ α, Nonempty (Service (.frst p n) p .frst α) :=
  ⟨_, ⟨bodyNum 1, n, ownFrst, .frst p, fun _ => rfl, fun _ _ _ _ => rfl, fun _ => rfl, frst_replies, bodyNum_refuses 1⟩⟩

theorem service_sopen (p : Port) (n : Nat) : ∃ α, Nonempty (Service (.sopen p n) p .sopen α) :=
  ⟨_, ⟨bodyNum 1, n, ownSopen, .sopen p, fun _ => rfl, fun _ _ _ _ => rfl, fun _ => rfl, sopen_replies, bodyNum_refuses 1⟩⟩

theorem service_setParam (p : Port) (a : Nat) (b : Nat) : ∃ α, Nonempty (Service (.setParam p a b) p .set α) :=
  ⟨_, ⟨bodySet, (a, b), ownSet, fun x => .setParam p x.1 x.2, fun _ => rfl, fun _ _ _ _ => rfl, fun _ => rfl, set_replies,
    bodySet_refuses⟩⟩

theorem service_rstrt (p : Port) : ∃ α, Nonempty (Service (.rstrt p) p .rstrt α) :=
  ⟨_, ⟨bodyNone, (), ownRstrt, fun _ => .rstrt p, fun _ => rfl, fun _ _ _ _ => rfl, fun _ => rfl,
    fun _ _ => replies_ack .., bodyNone_refuses⟩⟩

/-- A request kind and port with their service. -/
theorem request_service {c : Instr} {p : Port} {k : Kind} (h : requestOf c = some (p, k)) : ∃ α, Nonempty (Service c p k α) := by
  cases c with
  | stat q => cases h; exact service_stat ..
  | rdbin q n => cases h; exact service_rdbin ..
  | rdcell q n => cases h; exact service_rdcell ..
  | rdord q a b => cases h; exact service_rdord ..
  | rdcrn q n => cases h; exact service_rdcrn ..
  | rdseg q n => cases h; exact service_rdseg ..
  | rdzone q r => cases h; exact service_rdzone ..
  | fetch q a b l n m => cases h; exact service_fetch ..
  | pick q a b => cases h; exact service_pick ..
  | unpick q a b => cases h; exact service_unpick ..
  | slot q n => cases h; exact service_slot ..
  | place q a b => cases h; exact service_place ..
  | unclaim q a b => cases h; exact service_unclaim ..
  | relbay q a b => cases h; exact service_relbay ..
  | cancel q a b => cases h; exact service_cancel ..
  | cancelOnPortS a b => cases h; exact service_cancelOnPortS ..
  | nextWork q n => cases h; exact service_nextWork ..
  | load q a b => cases h; exact service_load ..
  | done q a b c => cases h; exact service_done ..
  | unable q a b n c => cases h; exact service_unable ..
  | tag q a b r => cases h; exact service_tag ..
  | rsv q a b => cases h; exact service_rsv ..
  | rel q a b => cases h; exact service_rel ..
  | clrt q => cases h; exact service_clrt ..
  | keep q n => cases h; exact service_keep ..
  | assign q a c => cases h; exact service_assign ..
  | clrsus q n => cases h; exact service_clrsus ..
  | block q n => cases h; exact service_block ..
  | unblk q n => cases h; exact service_unblk ..
  | quar q n => cases h; exact service_quar ..
  | unquar q n => cases h; exact service_unquar ..
  | setcmp q a l => cases h; exact service_setcmp ..
  | move q a b c => cases h; exact service_move ..
  | frel q a b c => cases h; exact service_frel ..
  | stop q n => cases h; exact service_stop ..
  | creep q n => cases h; exact service_creep ..
  | crend q n => cases h; exact service_crend ..
  | whold q l => cases h; exact service_whold ..
  | wres q => cases h; exact service_wres ..
  | frst q n => cases h; exact service_frst ..
  | sopen q n => cases h; exact service_sopen ..
  | setParam q a b => cases h; exact service_setParam ..
  | rstrt q => cases h; exact service_rstrt ..
  | _ => cases h

end Sys2Proof.Machine

end

/-! # The step, the start, and what a port takes (R190 to R199, R205, R206) -/

section

namespace Sys2Proof.Machine

/-! ## The step (log 3) -/

/-- Settles O1: the three cases of the step's definition. -/
theorem stepTakesTheFrontCommand : Obligations.StepTakesTheFrontCommand := by
  refine ⟨fun s c rest h => ?_, fun s h hr => ?_, fun s h hr => ?_⟩
  · simp [step, h]
  · simp [step, h, State.tick, hr]
  · simp [step, h, State.tick, hr]

/-! ## The state after reset (R39, R64, R112, R126, R163, R187, R201, R206) -/

theorem reset_bin (n : Nat) : State.reset.bin n = .cold := rfl
theorem reset_cell (n : Nat) : State.reset.cell n = .cold := rfl
theorem reset_bay (st : Station) (b : Nat) : State.reset.bay st b = .cold := rfl
theorem reset_slot (i : Nat) : State.reset.slot i = .cold := rfl

theorem reset_orderOf (h : Handle) : State.reset.orderOf h = none := by
  exact ite_self none

theorem reset_crane (x : Crane) : ∃ m lo hi seg k i, State.reset.crane x = .atStart m lo hi seg k i := by
  cases x <;> exact ⟨_, _, _, _, _, _, rfl⟩

/-- No crane works or carries after reset. -/
theorem reset_idle (x : Crane) :
    (State.reset.crane x).active = none ∧ (State.reset.crane x).carried = none ∧ (State.reset.crane x).orphan = false := by
  cases x <;> exact ⟨rfl, rfl, rfl⟩

theorem reset_directorySound : DirectorySound State.reset where
  stored b n := by simp [reset_bin, reset_cell, Bin.cold, Cell.cold]
  atBay b st k := by simp [reset_bin, reset_bay, Bin.cold, Bay.cold]
  onCrane b c := by simp [reset_bin, (reset_idle c).2.1, Bin.cold]
  sixteen b := by simp [reset_bin, Bin.cold]
  pending b h := by simp [reset_bin, Bin.cold] at h
  claimed b h := by simp [reset_bin, Bin.cold] at h

theorem reset_ordersSound : OrdersSound State.reset where
  slots i _ := by simp [reset_slot, Slot.cold]
  shaped h o ho := by simp [reset_orderOf] at ho
  bound b h := by simp [reset_bin, reset_orderOf, Bin.cold]
  reserved n h := by simp [reset_cell, reset_orderOf, Cell.cold]
  source h o b ho := by simp [reset_orderOf] at ho

theorem reset_cranesSound : CranesSound State.reset where
  active c h := by simp [reset_orderOf, (reset_idle c).1]
  loaded c h o ha := by simp [(reset_idle c).1] at ha
  dispatched c h o ha := by simp [(reset_idle c).1] at ha
  orphan c := by simp [reset_idle c]

theorem reset_portSound (p : Port) : PortSound (State.reset.port p) := by cases p <;> exact .atStart _

theorem reset_fireSound : FireSound State.reset := ⟨fun _ => ZoneSound.cold, fun _ => ShutterSound.atTop⟩

theorem reset_schedSound : SchedSound State.reset := .cold rfl (fun x => by cases x <;> exact ⟨rfl, rfl⟩)

/-- Settles O2: reset is sound, block by block, and its fields are those of a cold start. -/
theorem resetIsSoundAndCold : Obligations.ResetIsSoundAndCold := by
  refine ⟨⟨by decide, .free _ rfl, .atStart reset_crane, .atStart reset_crane, fun c => .atStart (reset_crane c),
    reset_portSound, .default rfl, ⟨reset_directorySound, reset_ordersSound, reset_cranesSound⟩, reset_schedSound, reset_fireSound⟩,
    fun _ => rfl, fun _ => rfl, fun _ _ => rfl, fun _ => rfl, rfl, fun c => ?_, fun _ => rfl, rfl, fun _ => rfl, fun _ => rfl,
    fun _ => ⟨rfl, rfl⟩, fun _ => rfl, rfl, fun p => ?_, rfl, rfl⟩
  · cases c <;> decide
  · cases p <;> decide

/-! ## Reading a body (R190) -/

theorem fitsByte_lt {n : Nat} (h : fitsByte n = true) : n < 256 ^ 1 := by simpa [fitsByte] using h

theorem fitsHalf_lt {n : Nat} (h : fitsHalf n = true) : n < 256 ^ 2 := by simpa [fitsHalf] using h

theorem readNum_end (w n : Nat) (h : n < 256 ^ w) : readNum w (numBytes w n) = .ok (n, []) := by
  simpa using readNum_bytes w n [] h

theorem bodyNum_bytes {w n : Nat} (h : n < 256 ^ w) : bodyNum w (numBytes w n) = .ok n := readBody_done (readNum_end w n h)

theorem bodyNum2_bytes {v w a b : Nat} (ha : a < 256 ^ v) (hb : b < 256 ^ w) :
    bodyNum2 v w (numBytes v a ++ numBytes w b) = .ok (a, b) := by
  refine readBody_done ?_
  rw [reader_bind (readNum_bytes v a _ ha), reader_bind (readNum_end w b hb)]
  rfl

theorem bodyNum3_bytes {u v w a b c : Nat} (ha : a < 256 ^ u) (hb : b < 256 ^ v) (hc : c < 256 ^ w) :
    bodyNum3 u v w (numBytes u a ++ numBytes v b ++ numBytes w c) = .ok (a, b, c) := by
  refine readBody_done ?_
  rw [List.append_assoc, reader_bind (readNum_bytes u a _ ha), reader_bind (readNum_bytes v b _ hb),
    reader_bind (readNum_end w c hc)]
  rfl

theorem bodyFetch_bytes {a b m : Nat} {l : List Nat} {n : BitVec 32} (ha : fitsHalf a = true) (hb : fitsByte b = true)
    (hl : fitsList l = true) (hm : fitsByte m = true) :
    bodyFetch (numBytes 2 a ++ numBytes 1 b ++ listBytes l ++ numBytes 4 n.toNat ++ numBytes 1 m) = .ok ⟨a, b, l, n, m⟩ := by
  have hn : n.toNat < 256 ^ 4 := by have := n.isLt; omega
  refine readBody_done ?_
  simp only [List.append_assoc]
  rw [reader_bind (readNum_bytes 2 a _ (fitsHalf_lt ha)), reader_bind (readNum_bytes 1 b _ (fitsByte_lt hb)),
    reader_bind (readList_bytes l _ hl), reader_bind (readNum_bytes 4 n.toNat _ hn),
    reader_bind (readNum_end 1 m (fitsByte_lt hm))]
  simp [pure, StateT.pure, Except.pure]

theorem readOptCell_end (c : Option Nat) (h : fitsOptCell c = true) : readOptCell (optCellBytes c) = .ok (c, []) := by
  simpa using readOptCell_bytes c [] h

theorem bodyDone_bytes {a b : Nat} {c : Option Nat} (ha : fitsByte a = true) (hb : fitsByte b = true) (hc : fitsOptCell c = true) :
    bodyDone (numBytes 1 a ++ numBytes 1 b ++ optCellBytes c) = .ok ⟨a, b, 0, c⟩ := by
  refine readBody_done ?_
  simp only [List.append_assoc]
  rw [reader_bind (readNum_bytes 1 a _ (fitsByte_lt ha)), reader_bind (readNum_bytes 1 b _ (fitsByte_lt hb)),
    reader_bind (readOptCell_end c hc)]
  rfl

theorem bodyUnable_bytes {a b n : Nat} {c : Option Nat} (ha : fitsByte a = true) (hb : fitsByte b = true)
    (hn : fitsByte n = true) (hc : fitsOptCell c = true) :
    bodyUnable (numBytes 1 a ++ numBytes 1 b ++ numBytes 1 n ++ optCellBytes c) = .ok ⟨a, b, n, c⟩ := by
  refine readBody_done ?_
  simp only [List.append_assoc]
  rw [reader_bind (readNum_bytes 1 a _ (fitsByte_lt ha)), reader_bind (readNum_bytes 1 b _ (fitsByte_lt hb)),
    reader_bind (readNum_bytes 1 n _ (fitsByte_lt hn)), reader_bind (readOptCell_end c hc)]
  rfl

theorem bodyTag_bytes {a b : Nat} {r : TagResult} (ha : fitsByte a = true) (hb : fitsByte b = true) (hr : r.fits = true) :
    bodyTag (numBytes 1 a ++ numBytes 1 b ++ resultBytes r) = .ok ⟨a, b, r⟩ := by
  have hend : readResult (resultBytes r) = .ok (r, []) := by simpa using readResult_bytes r [] hr
  refine readBody_done ?_
  simp only [List.append_assoc]
  rw [reader_bind (readNum_bytes 1 a _ (fitsByte_lt ha)), reader_bind (readNum_bytes 1 b _ (fitsByte_lt hb)), reader_bind hend]
  rfl

theorem bodyAssign_bytes {a : Nat} {c : Option Nat} (ha : fitsHalf a = true) (hc : fitsOptCell c = true) :
    bodyAssign (numBytes 2 a ++ optCellBytes c) = .ok (a, c) := by
  refine readBody_done ?_
  rw [reader_bind (readNum_bytes 2 a _ (fitsHalf_lt ha)), reader_bind (readOptCell_end c hc)]
  rfl

theorem readList_end (l : List Nat) (h : fitsList l = true) : readList (listBytes l) = .ok (l, []) := by
  simpa using readList_bytes l [] h

theorem bodySetcmp_bytes {a : Nat} {l : List Nat} (ha : fitsHalf a = true) (hl : fitsList l = true) :
    bodySetcmp (numBytes 2 a ++ listBytes l) = .ok (a, l) := by
  refine readBody_done ?_
  rw [reader_bind (readNum_bytes 2 a _ (fitsHalf_lt ha)), reader_bind (readList_end l hl)]
  rfl

theorem bodyZones_bytes {l : List Nat} (hl : fitsList l = true) : bodyZones (listBytes l) = .ok l :=
  readBody_done (readList_end l hl)

theorem bodySet_bytes {code v : Nat} {q : Param} (hc : fitsByte code = true) (hq : paramOf code = some q)
    (hv : v < 256 ^ paramWidth q) : bodySet (numBytes 1 code ++ numBytes (paramWidth q) v) = .ok (code, v) := by
  refine readBody_done ?_
  rw [reader_bind (readNum_bytes 1 code _ (fitsByte_lt hc)), hq]
  simp only
  rw [reader_bind (readNum_end _ v hv)]
  rfl

/-- Settles O6: command by command, the body's fields are read back in their order. -/
theorem bodyRoundTrip : Obligations.BodyRoundTrip := by
  intro c p k hr hw hs
  cases c with
  | stat q | clrt q | wres q | rstrt q => cases hr; rfl
  | rdcrn q n | rdseg q n | slot q n | nextWork q n | keep q n | stop q n | creep q n | crend q n | frst q n | sopen q n =>
    cases hr
    simp [commandOf, requestBody, Except.map, bodyNum_bytes (fitsByte_lt hw)]
  | rdzone q r =>
    cases hr
    simp [commandOf, requestBody, pinLevel, Except.map, bodyNum_bytes (fitsByte_lt hw)]
  | rdbin q n | rdcell q n | clrsus q n | block q n | unblk q n | quar q n | unquar q n =>
    cases hr
    simp [commandOf, requestBody, Except.map, bodyNum_bytes (fitsHalf_lt hw)]
  | rdord q a b | relbay q a b | load q a b | rsv q a b | rel q a b | cancelOnPortS a b =>
    cases hr
    obtain ⟨ha, hb⟩ := Bool.and_eq_true_iff.mp hw
    simp [commandOf, requestBody, Except.map, bodyNum2_bytes (fitsByte_lt ha) (fitsByte_lt hb)]
  | cancel q a b =>
    cases hr
    obtain ⟨ha, hb⟩ := Bool.and_eq_true_iff.mp hw
    cases p <;> simp [commandOf, requestBody, Except.map, bodyNum2_bytes (fitsByte_lt ha) (fitsByte_lt hb)]
  | pick q a b | unpick q a b | place q a b | unclaim q a b =>
    cases hr
    obtain ⟨ha, hb⟩ := Bool.and_eq_true_iff.mp hw
    simp [commandOf, requestBody, Except.map, bodyNum2_bytes (fitsHalf_lt ha) (fitsByte_lt hb)]
  | move q a b n =>
    cases hr
    obtain ⟨hab, hn⟩ := Bool.and_eq_true_iff.mp hw
    obtain ⟨ha, hb⟩ := Bool.and_eq_true_iff.mp hab
    simp only [commandOf, requestBody, Except.map, bodyNum3_bytes (fitsHalf_lt ha) (fitsHalf_lt hb) (fitsByte_lt hn)]
  | frel q a b n =>
    cases hr
    obtain ⟨hab, hn⟩ := Bool.and_eq_true_iff.mp hw
    obtain ⟨ha, hb⟩ := Bool.and_eq_true_iff.mp hab
    simp only [commandOf, requestBody, Except.map, bodyNum3_bytes (fitsByte_lt ha) (fitsByte_lt hb) (fitsByte_lt hn)]
  | fetch q a b l n m =>
    cases hr
    obtain ⟨habl, hm⟩ := Bool.and_eq_true_iff.mp hw
    obtain ⟨hab, hl⟩ := Bool.and_eq_true_iff.mp habl
    obtain ⟨ha, hb⟩ := Bool.and_eq_true_iff.mp hab
    simp only [commandOf, requestBody, Except.map, bodyFetch_bytes ha hb hl hm]
  | done q a b c =>
    cases hr
    obtain ⟨hab, hc⟩ := Bool.and_eq_true_iff.mp hw
    obtain ⟨ha, hb⟩ := Bool.and_eq_true_iff.mp hab
    simp only [commandOf, requestBody, Except.map, bodyDone_bytes ha hb hc]
  | unable q a b n c =>
    cases hr
    obtain ⟨habn, hc⟩ := Bool.and_eq_true_iff.mp hw
    obtain ⟨hab, hn⟩ := Bool.and_eq_true_iff.mp habn
    obtain ⟨ha, hb⟩ := Bool.and_eq_true_iff.mp hab
    simp only [commandOf, requestBody, Except.map, bodyUnable_bytes ha hb hn hc]
  | tag q a b r =>
    cases hr
    obtain ⟨hab, hr⟩ := Bool.and_eq_true_iff.mp hw
    obtain ⟨ha, hb⟩ := Bool.and_eq_true_iff.mp hab
    simp only [commandOf, requestBody, Except.map, bodyTag_bytes ha hb hr]
  | assign q a c =>
    cases hr
    obtain ⟨ha, hc⟩ := Bool.and_eq_true_iff.mp hw
    simp [commandOf, requestBody, Except.map, bodyAssign_bytes ha hc]
  | setcmp q a l =>
    cases hr
    obtain ⟨ha, hl⟩ := Bool.and_eq_true_iff.mp hw
    simp [commandOf, requestBody, Except.map, bodySetcmp_bytes ha hl]
  | whold q l =>
    cases hr
    simp [commandOf, requestBody, Except.map, bodyZones_bytes hw]
  | setParam q code v =>
    cases hr
    obtain ⟨hc, -⟩ := Bool.and_eq_true_iff.mp hw
    cases hx : paramOf code with
    | none => simp [setFits, hx] at hs
    | some x =>
    simp only [setFits, hx, Option.any_some, decide_eq_true_eq] at hs
    simp [commandOf, requestBody, Except.map, hx, bodySet_bytes hc hx hs]
  | _ => cases hr

/-! ## Items and busy servers (R196, R197) -/

theorem takeChar_server (q : LinkPort) (c : RxChar) :
    (q.takeChar c).item = q.item ∧ (q.takeChar c).slot = q.slot ∧ (q.takeChar c).stopped = q.stopped := by
  unfold LinkPort.takeChar
  split <;> exact ⟨rfl, rfl, rfl⟩

/-- The assembler leaves the request server: the item, the response slot, and whether it is stopped. -/
theorem assembleSteps_server (n : Nat) (q : LinkPort) :
    (assembleSteps n q).item = q.item ∧ (assembleSteps n q).slot = q.slot ∧ (assembleSteps n q).stopped = q.stopped := by
  induction n generalizing q with
  | zero => exact ⟨rfl, rfl, rfl⟩
  | succ n ih =>
    unfold assembleSteps
    split
    · exact ⟨rfl, rfl, rfl⟩
    · split
      · exact ⟨rfl, rfl, rfl⟩
      · next c rest _ =>
        obtain ⟨h1, h2, h3⟩ := ih (({ q with fifo := rest } : LinkPort).takeChar c)
        obtain ⟨g1, g2, g3⟩ := takeChar_server { q with fifo := rest } c
        exact ⟨h1.trans g1, h2.trans g2, h3.trans g3⟩

theorem takeItem_server (q : LinkPort) :
    q.takeItem.item = none ∧ q.takeItem.slot = q.slot ∧ q.takeItem.stopped = q.stopped := assembleSteps_server _ _

/-- What R76 names does not lie in the link ports. -/
theorem waitTrigger_setPort (x : Crane) (s : State) (p : Port) (q : LinkPort) (t : State) :
    waitTrigger x (s.setPort p q) t = waitTrigger x s t := by
  simp [waitTrigger, queueChanged]

theorem evalCranes_setPort (s : State) (p : Port) (q : LinkPort) (t : State) (a b c : Bool) :
    evalCranes (s.setPort p q) t a b c = evalCranes s t a b c := by
  simp [evalCranes, waitTrigger_setPort]

theorem conclude_setPort (s : State) (p' : Port) (q : LinkPort) (p : Port) (k : Kind) (a : Bool) (r : State × Reply) :
    conclude (s.setPort p' q) p k a r = conclude s p k a r := by
  simp [conclude, evalCranes_setPort]

/-- A finished item of the kind is taken and its body answered (R197). -/
theorem serve_item {α : Type} {p : Port} {k : Kind} {read : List Byte → Except Reason α} {args : α}
    {owner : α → State → State × Reply} {a : Bool} {s : State} {body : List Byte} (hr : s.running = true)
    (hs : (s.port p).slot = none) (ht : (s.port p).stopped = false) (hi : (s.port p).item = some (.message (kindCode k) body)) :
    serve p k read args owner a s =
      .next (conclude s p k a (answer p k (read body) owner (s.setPort p (s.port p).takeItem))) := by
  simp [serve, served, hr, hi, LinkPort.ready, hs, ht]

/-- After the item is taken the server finds itself free. -/
theorem serves_takeItem {s : State} {p : Port} (hr : s.running = true) (hs : (s.port p).slot = none)
    (ht : (s.port p).stopped = false) : (s.setPort p (s.port p).takeItem).serves p := by
  obtain ⟨h1, h2, h3⟩ := takeItem_server (s.port p)
  exact ⟨by simpa using hr, by simpa [h2] using hs, by simpa [h3] using ht, by simpa using h1⟩

/-- A busy server takes nothing (R197, R205; log 1). -/
theorem serve_busy {α : Type} {p : Port} {k : Kind} {read : List Byte → Except Reason α} {args : α}
    {owner : α → State → State × Reply} {a : Bool} {s : State}
    (h : (s.port p).slot ≠ none ∨ (s.port p).stopped = true ∨
      ∃ i, (s.port p).item = some i ∧ ∀ body, i ≠ .message (kindCode k) body) : serve p k read args owner a s = .next s := by
  rcases h with h | h | ⟨i, hi, hne⟩
  · have : (s.port p).slot.isNone = false := by simpa [Option.isSome_iff_ne_none] using h
    simp [serve, served, LinkPort.ready, this]
  · simp [serve, served, LinkPort.ready, h]
  · cases i with
    | message code body =>
      have : code ≠ kindCode k := fun e => hne body (by rw [e])
      simp [serve, served, hi, this]
    | refused c r => simp [serve, served, hi]

/-- While the part does not run no server takes anything (R205). -/
theorem serve_stopped {α : Type} {p : Port} {k : Kind} {read : List Byte → Except Reason α} {args : α}
    {owner : α → State → State × Reply} {a : Bool} {s : State} (h : s.running = false) :
    serve p k read args owner a s = .next s := by simp [serve, served, h]

theorem portRefusal_eq_none {p : Port} {k : Kind} (h : p ∈ kindPorts k) : portRefusal p k = none := by
  simp [portRefusal, h]

theorem portRefusal_of_notMem {p : Port} {k : Kind} (h : p ∉ kindPorts k) :
    portRefusal p k = some (if ∀ q ∈ kindPorts k, portLevel q < portLevel p then .authority else .role) := by
  unfold portRefusal
  split
  · next hc => exact absurd (by simpa using hc) h
  · split
    · next ha => rw [if_pos (by simpa using ha)]
    · next ha => rw [if_neg (by simpa using ha)]

/-- Settles O7: the item is taken, and what its body spells is served as the direct command would be. -/
theorem itemsAreServedByTheirBodies : Obligations.ItemsAreServedByTheirBodies := by
  refine ⟨fun s p k body c d hr hs ht hi hc hd => ?_, fun s p k body r d hr hs ht hi hp hc hd => ?_⟩ <;>
    obtain ⟨α, ⟨v⟩⟩ := request_service hd <;> rw [v.spelled] at hc <;>
      rw [v.exec_eq, serve_item hr hs ht hi] <;> cases hb : v.read body <;> rw [hb] at hc <;> cases hc
  case refine_1.ok a =>
    rw [v.spell_exec body a _ hb, serve_direct (serves_takeItem hr hs ht), conclude_setPort]
  case refine_2.error =>
    refine ⟨v.refuses body r hb, ?_⟩
    have hanswer : answer p k (.error r) v.owner (s.setPort p (s.port p).takeItem) = (s.setPort p (s.port p).takeItem, .nak r none) := by
      simp [answer, portRefusal_eq_none hp, refuse]
    rw [hanswer, ← conclude_setPort s p (s.port p).takeItem, conclude_nak]
    rfl

/-- The waiting flag of a crane only falls at its evaluation (R76). -/
theorem evalWaiting_waiting (s : State) (x : Crane) (b : Bool) (c : Crane) (h : ((s.evalWaiting x b).crane c).waiting = true) :
    (s.crane c).waiting = true := by
  unfold State.evalWaiting at h
  dsimp only at h
  split at h
  · simp only [State.raise, State.setPort_crane, State.setCrane_crane] at h
    split at h
    · simp at h
    · exact h
  · exact h

theorem evalCranes_waiting (s t : State) (a b d : Bool) (c : Crane) (h : ((evalCranes s t a b d).crane c).waiting = true) :
    (t.crane c).waiting = true := by
  unfold evalCranes at h
  dsimp only at h
  split at h <;> split at h
  · exact evalWaiting_waiting _ _ _ _ (evalWaiting_waiting _ _ _ _ h)
  · exact evalWaiting_waiting _ _ _ _ h
  · exact evalWaiting_waiting _ _ _ _ h
  · exact h

theorem pump_crane (s : State) (c : Crane) : s.pump.crane c = s.crane c := by cases c <;> rfl

theorem conclude_waiting (s : State) (p : Port) (k : Kind) (a : Bool) (r : State × Reply) (c : Crane)
    (h : ((conclude s p k a r).crane c).waiting = true) : (r.1.crane c).waiting = true := by
  unfold conclude at h
  rw [pump_crane] at h
  split at h
  · simpa [State.respond] using h
  · simpa [State.respond] using evalCranes_waiting _ _ _ _ _ _ h

/-- Settles O8: a free server answers by its port, then by its owner, who takes the request or refuses it unchanged. -/
theorem requestsAreTakenOrRefusedAndEnd : Obligations.RequestsAreTakenOrRefusedAndEnd := by
  refine ⟨fun c p k s hc hs => ?_, fun s p k always u fields hsend => ⟨?_, fun x => ?_, ?_, fun c => ?_⟩⟩
  · obtain ⟨α, ⟨v⟩⟩ := request_service hc
    rw [v.exec_eq]
    by_cases hp : p ∈ kindPorts k
    · rw [serve_direct hs, answer_taken (portRefusal_eq_none hp)]
      rcases v.replies v.args s with ⟨u, f, e⟩ | ⟨r, d, e⟩ <;> rw [e]
      · exact .inl ⟨f, u, rfl⟩
      · rw [conclude_nak]
        exact .inr ⟨r, d, rfl⟩
    · exact .inr ⟨_, none, serve_portRefused hs (portRefusal_of_notMem hp)⟩
  · exact (still_conclude s p k always (u, .ack fields)).symm
  · exact (conclude_receiver s p k always (u, .ack fields) x).symm
  · exact conclude_answered s p k always (u, .ack fields) hsend
  · exact conclude_waiting s p k always (u, .ack fields) c

/-- A command that is neither a request, nor of the main supply, nor of the reset input is an event of the running part. -/
theorem event_whenRunning {c : Instr} (hc : requestOf c = none) (h1 : c ≠ .powerOn) (h2 : c ≠ .lossOfMainSupply)
    (h3 : c ≠ .resetAsserted) (h4 : ∀ v l, c ≠ .resetReleased v l) : ∃ f, ∀ s, exec c s = whenRunning s f := by
  cases c with
  | powerOn => exact absurd rfl h1
  | lossOfMainSupply => exact absurd rfl h2
  | resetAsserted => exact absurd rfl h3
  | resetReleased v l => exact absurd rfl (h4 v l)
  | assemblerRefusal | unknownKind | messageComplete | overlengthMessage | lineBreak | transmitComplete | positionSample
  | inputExcursion | filterWindow | keepaliveExpiry | progressTimerExpiry | verificationIntervalExpiry | loopSample
  | clearanceTimerExpiry | travelTimerExpiry | limitEdge | fireResetInput | generatorTick | characterReceived | breakEnd =>
    exact ⟨_, fun _ => rfl⟩
  | _ => cases hc

theorem whenRunning_stopped {s : State} {f : State → State} (h : s.running = false) : whenRunning s f = .next s := by
  simp [whenRunning, eventState, h]

/-- Settles O9: a port refuses a kind by the levels of the ports that take it; a busy or stopped server takes nothing. -/
theorem whatAPortDoesNotTake : Obligations.WhatAPortDoesNotTake := by
  refine ⟨fun c p k s hc hs hp => ?_, fun c p k s hc hbusy => ?_, fun c s hr h1 h2 h3 h4 => ?_⟩
  · obtain ⟨α, ⟨v⟩⟩ := request_service hc
    rw [v.exec_eq]
    exact serve_portRefused hs (portRefusal_of_notMem hp)
  · obtain ⟨α, ⟨v⟩⟩ := request_service hc
    rw [v.exec_eq]
    exact serve_busy hbusy
  · cases hc : requestOf c with
    | some pk =>
      obtain ⟨α, ⟨v⟩⟩ := request_service (p := pk.1) (k := pk.2) hc
      rw [v.exec_eq]
      exact serve_stopped hr
    | none =>
      obtain ⟨f, hf⟩ := event_whenRunning hc h1 h2 h3 h4
      rw [hf]
      exact whenRunning_stopped hr

/-! ## Notices (R199) -/

theorem craneCode_inj (c d : Crane) : craneCode c = craneCode d ↔ c = d := by cases c <;> cases d <;> simp [craneCode]

theorem handle_ext_iff (h g : Handle) : h = g ↔ h.slot = g.slot ∧ h.gen = g.gen := by
  obtain ⟨a, b⟩ := h
  obtain ⟨c, d⟩ := g
  simp

theorem sameAs_iff (n m : Notice) : n.sameAs m = true ↔ n.kindCode = m.kindCode ∧ n.subject = m.subject := by
  simp [Notice.sameAs]

/-- Settles O10: one kind and one subject replace; else the queue takes the notice or loses it. -/
theorem noticeJoinsReplacesOrIsLost : Obligations.NoticeJoinsReplacesOrIsLost := by
  refine ⟨fun n m => ?_, fun q n => ⟨?_, ?_, ?_⟩⟩
  · rw [sameAs_iff]
    cases n <;> cases m <;> simp [Notice.kindCode, Notice.subject, craneCode_inj, handle_ext_iff]
  · rintro ⟨m, hm, hsame⟩
    have hany : q.queue.any n.sameAs = true := List.any_eq_true.mpr ⟨m, hm, hsame⟩
    simp [LinkPort.offer, hany]
  · intro hno hlt
    have hany : q.queue.any n.sameAs = false := List.any_eq_false.mpr (fun m hm => by simp [hno m hm])
    simp [LinkPort.offer, hany, noticeCapacity, hlt]
  · intro hno hge
    have hany : q.queue.any n.sameAs = false := List.any_eq_false.mpr (fun m hm => by simp [hno m hm])
    simp [LinkPort.offer, hany, noticeCapacity, not_lt.mpr hge]

end Sys2Proof.Machine

end

/-! # The bin directory and the order table (chapters 2 and 3) -/

section

namespace Sys2Proof.Machine

/-! ## The bounds of request fields as inequalities (R9) -/

theorem okBin_iff (n : Nat) : okBin n = true ↔ n < 4096 := by simp [okBin]
theorem okCell_iff (n : Nat) : okCell n = true ↔ n < 3840 := by simp [okCell]
theorem okSlot_iff (n : Nat) : okSlot n = true ↔ n < 64 := by simp [okSlot]
theorem okAuthority_iff (n : Nat) : okAuthority n = true ↔ n < 4 := by simp [okAuthority]

/-- The reads are taken on every port (R191). -/
theorem read_taken (p : Port) {k : Kind} (h : k ∈ [.stat, .rdbin, .rdcell, .rdord, .rdcrn, .rdseg, .rdzone]) :
    portRefusal p k = none := by
  refine portRefusal_eq_none ?_
  simp only [List.mem_cons, List.not_mem_nil, or_false] at h
  rcases h with rfl | rfl | rfl | rfl | rfl | rfl | rfl <;> cases p <;> decide

/-! ## The directory and order reads (R36, R37, R63) -/

theorem freeCount_eq (b : Bin) : b.freeCount = b.comps.count .free := rfl

theorem binFields_inside {s : State} {n : Nat} (h : ∀ st b, (s.bin n).place ≠ .atBay st b) :
    s.binBayFields (s.bin n) = [.absent, .absent, .absent] := by
  unfold State.binBayFields
  split
  · next st b e => exact absurd e (h st b)
  all_goals rfl

theorem orderOf_live {s : State} {i g : Nat} {o : Order} (h : s.slot i = ⟨g, some o⟩) : s.orderOf ⟨i, g⟩ = some o := by
  simp [State.orderOf, h]

theorem orderOf_free {s : State} {i g' : Nat} (g : Nat) (h : s.slot i = ⟨g', none⟩) : s.orderOf ⟨i, g⟩ = none := by
  simp [State.orderOf, h]

theorem orderOf_other {s : State} {i g g' : Nat} {o : Order} (hg : g' ≠ g) (h : s.slot i = ⟨g', some o⟩) :
    s.orderOf ⟨i, g⟩ = none := by
  simp [State.orderOf, h, hg]

/-- Settles O11: each read answers the record's fields and leaves the state. -/
theorem directoryAndOrderReadsAnswer : Obligations.DirectoryAndOrderReadsAnswer := by
  refine ⟨fun s p n hs => ⟨fun hn hno => ?_, fun st b hn hat => ?_, fun hn => ?_, fun hn => ?_, fun hn => ?_⟩,
    fun s p i g hs hi => ⟨fun o ho => ?_, fun g' ho => ?_, fun g' o hg ho => ?_⟩⟩
  · refine serve_acked hs (read_taken p (by decide)) ?_
    rw [ownRdbin, if_pos ((okBin_iff n).mpr hn), State.binFields, binFields_inside hno]
    rfl
  · refine serve_acked hs (read_taken p (by decide)) ?_
    rw [ownRdbin, if_pos ((okBin_iff n).mpr hn)]
    simp [State.binFields, State.binBayFields, hat, BinPlace.code, BinPlace.location, optField, freeCount_eq]
  · refine serve_refused hs (read_taken p (by decide)) ?_
    rw [ownRdbin, if_neg (by rw [okBin_iff]; omega)]
    rfl
  · refine serve_acked hs (read_taken p (by decide)) ?_
    rw [ownRdcell, if_pos ((okCell_iff n).mpr hn)]
    rfl
  · refine serve_refused hs (read_taken p (by decide)) ?_
    rw [ownRdcell, if_neg (by rw [okCell_iff]; omega)]
    rfl
  · refine serve_acked hs (read_taken p (by decide)) ?_
    simp [ownRdord, (okSlot_iff i).mpr hi, orderOf_live ho, orderFields, secondsUp, divCeil]
  · refine serve_acked hs (read_taken p (by decide)) ?_
    simp [ownRdord, (okSlot_iff i).mpr hi, orderOf_free g ho, ho]
  · refine serve_acked hs (read_taken p (by decide)) ?_
    simp [ownRdord, (okSlot_iff i).mpr hi, orderOf_other hg ho, ho, State.handleAt]

/-! ## ASSIGN (R31) -/

/-- The compartments of an assigned bin: pending picks become OCCUPIED, claims FREE (R31). -/
theorem revert_comps (b : Bin) :
    b.revertPicks.revertClaims =
      { b with comps := b.comps.map (fun c => if c = .pendingPick then .occupied else if c = .claimed then .free else c) } := by
  simp only [Bin.revertPicks, Bin.revertClaims, List.map_map]
  congr 1
  refine List.map_congr_left (fun c _ => ?_)
  cases c <;> rfl

theorem not_isOnCrane {x : BinPlace} (h : ∀ c, x ≠ .onCrane c) : x.isOnCrane = false := by
  cases x with
  | onCrane c => exact absurd rfl (h c)
  | _ => rfl

theorem isOnCrane_iff (x : BinPlace) : x.isOnCrane = true ↔ ∃ c, x = .onCrane c := by
  cases x <;> simp [BinPlace.isOnCrane]

theorem leaveOldPlace_frame (s : State) (b : Nat) (cell : Option Nat) :
    ∃ x y, s.leaveOldPlace b cell = { s with cells := x, bays := y } := by
  unfold State.leaveOldPlace
  split
  · split <;> exact ⟨_, _, rfl⟩
  all_goals exact ⟨_, _, rfl⟩

theorem leaveOldPlace_cell (s : State) (b : Nat) (cell : Option Nat) (n : Nat) :
    (s.leaveOldPlace b cell).cell n =
      if (s.bin b).place = .stored n ∧ cell ≠ some n then ⟨.unverified, none, 0⟩ else s.cell n := by
  unfold State.leaveOldPlace
  split
  · next m hm =>
    simp only [hm, BinPlace.stored.injEq]
    by_cases hn : m = n
    · subst hn
      by_cases hc : cell = some m <;> simp [hc, State.cellTo, Cell.toState]
    · split <;> simp [State.cellTo, State.setCell_cell, hn, Ne.symm hn]
  all_goals simp [*, State.emptyBay]

theorem leaveOldPlace_bay (s : State) (b : Nat) (cell : Option Nat) (st : Station) (bay : Nat) :
    (s.leaveOldPlace b cell).bay st bay = if (s.bin b).place = .atBay st bay then ⟨.empty, false, false⟩ else s.bay st bay := by
  unfold State.leaveOldPlace
  split
  · next m hm =>
    split <;> simp [hm, State.cellTo]
  · next st' bay' hm =>
    simp only [hm, BinPlace.atBay.injEq, State.emptyBay, setBay_bay, Prod.mk.injEq, Bay.cold, eq_comm]
  all_goals simp [*]

theorem takeNewPlace_frame (s : State) (b : Nat) (cell : Option Nat) :
    ∃ x y, s.takeNewPlace b cell = { s with bins := x, cells := y } := by
  cases cell <;> exact ⟨_, _, rfl⟩

theorem takeNewPlace_bin (s : State) (b : Nat) (cell : Option Nat) (m : Nat) :
    (s.takeNewPlace b cell).bin m = if m = b then { s.bin b with place := cell.elim .unregistered .stored } else s.bin m := by
  cases cell <;> simp [State.takeNewPlace, State.binTo, State.setBin_bin]

theorem takeNewPlace_cell (s : State) (b : Nat) (cell : Option Nat) (n : Nat) :
    (s.takeNewPlace b cell).cell n = if cell = some n then ⟨.occupied b, none, 0⟩ else s.cell n := by
  cases cell with
  | none => simp [State.takeNewPlace, State.binTo]
  | some m => simp [State.takeNewPlace, State.binTo, State.setCell_cell, eq_comm]

theorem assign_frame (s : State) (b : Nat) (cell : Option Nat) :
    s.assign b cell =
      { s with bins := (s.assign b cell).bins, cells := (s.assign b cell).cells, bays := (s.assign b cell).bays } := by
  obtain ⟨x, y, h1⟩ := leaveOldPlace_frame (s.setBin b (s.bin b).revertPicks.revertClaims) b cell
  obtain ⟨v, w, h2⟩ := takeNewPlace_frame ((s.setBin b (s.bin b).revertPicks.revertClaims).leaveOldPlace b cell) b cell
  unfold State.assign
  rw [h2, h1]
  rfl

theorem assign_bin (s : State) (b : Nat) (cell : Option Nat) (m : Nat) :
    (s.assign b cell).bin m =
      if m = b then { (s.bin b).revertPicks.revertClaims with place := cell.elim .unregistered .stored } else s.bin m := by
  obtain ⟨x, y, h1⟩ := leaveOldPlace_frame (s.setBin b (s.bin b).revertPicks.revertClaims) b cell
  have hb : ∀ k, ((s.setBin b (s.bin b).revertPicks.revertClaims).leaveOldPlace b cell).bin k =
      (s.setBin b (s.bin b).revertPicks.revertClaims).bin k := fun k => by rw [h1]; rfl
  rw [State.assign, takeNewPlace_bin, hb, hb, State.setBin_bin_same, State.setBin_bin]
  split <;> rfl

theorem assign_cell (s : State) (b : Nat) (cell : Option Nat) (n : Nat) :
    (s.assign b cell).cell n =
      if cell = some n then ⟨.occupied b, none, 0⟩
      else if (s.bin b).place = .stored n then ⟨.unverified, none, 0⟩ else s.cell n := by
  rw [State.assign, takeNewPlace_cell]
  split
  · rfl
  · next h =>
    simp [leaveOldPlace_cell, h, Bin.revertPicks, Bin.revertClaims]

theorem assign_bay (s : State) (b : Nat) (cell : Option Nat) (st : Station) (bay : Nat) :
    (s.assign b cell).bay st bay = if (s.bin b).place = .atBay st bay then ⟨.empty, false, false⟩ else s.bay st bay := by
  obtain ⟨v, w, h2⟩ := takeNewPlace_frame ((s.setBin b (s.bin b).revertPicks.revertClaims).leaveOldPlace b cell) b cell
  have hb : ((s.setBin b (s.bin b).revertPicks.revertClaims).leaveOldPlace b cell).bay st bay =
      if (s.bin b).place = .atBay st bay then ⟨.empty, false, false⟩ else s.bay st bay := by
    simp [leaveOldPlace_bay, Bin.revertPicks, Bin.revertClaims]
  rw [State.assign, h2]
  exact hb

/-- Check 2 of R31 (R24). -/
theorem assignCellOk_iff (s : State) (b n : Nat) :
    s.assignCellOk b n = true ↔
      (s.cell n).state = .empty ∨ (s.cell n).state = .unverified ∨ (s.cell n).state = .suspect ∨ (s.bin b).place = .stored n := by
  unfold State.assignCellOk
  split <;> next h => simp [h]

theorem exec_assign (p : Port) (b : Nat) (c : Option Nat) (s : State) :
    exec (.assign p b c) s = serve p .assign bodyAssign (b, c) ownAssign false s := rfl

theorem okOptCell_of {cell : Option Nat} (h : ∀ n, cell = some n → n < 3840) : okOptCell cell = true := by
  cases cell with
  | none => rfl
  | some n => exact (okCell_iff n).mpr (h n rfl)

/-- Settles O12: the changes of R31 record by record; its end raises no notice. -/
theorem assignPlacesTheBin : Obligations.AssignPlacesTheBin := by
  refine ⟨fun s b cell hs hb hc ho hp hok => ?_, fun s b cell hs hb hc => ⟨fun hbusy => ?_, fun ho hp hbad => ?_⟩⟩
  · refine ⟨s.assign b cell, ?_, assign_frame s b cell, fun m hm => by rw [assign_bin, if_neg hm], ?_, assign_cell s b cell,
      assign_bay s b cell⟩
    · have hcells : cell.any (fun n => !s.assignCellOk b n) = false := by
        cases cell with
        | none => rfl
        | some n => simpa using (assignCellOk_iff s b n).mpr (hok n rfl)
      have hown : ownAssign (b, cell) s =
          (s.assign b cell, .ack ([.named (cell.elim BinPlace.unregistered .stored).code] ++
            optField .place (cell.elim BinPlace.unregistered .stored).location)) := by
        simp [ownAssign, (okBin_iff b).mpr hb, okOptCell_of hc, ho, not_isOnCrane hp, hcells, assign_bin]
      rw [exec_assign, serve_acked hs rfl hown, acked, conclude_assign]
      cases cell <;> rfl
    · rw [assign_bin, if_pos rfl, revert_comps, ho]
  · refine serve_refused hs rfl ?_
    have hor : ((s.bin b).order.isSome || (s.bin b).place.isOnCrane) = true := by
      rw [Bool.or_eq_true, isOnCrane_iff]
      exact hbusy.imp_left Option.isSome_iff_ne_none.mpr
    simp [ownAssign, (okBin_iff b).mpr hb, okOptCell_of hc, hor, refuse]
  · obtain ⟨n, rfl, hne, hstate⟩ := hbad
    have hbad : s.assignCellOk b n = false := by
      rw [Bool.eq_false_iff, Ne, assignCellOk_iff]
      rcases hstate with ⟨x, e⟩ | ⟨x, e⟩ | e <;> simp [e, hne]
    refine serve_refused hs rfl ?_
    simp [ownAssign, (okBin_iff b).mpr hb, okOptCell_of hc, ho, not_isOnCrane hp, hbad, refuse]

/-! ## The service requests on cells and bins (R32 to R34) -/

/-- A cell that records no bin enters BLOCKED alone (R27). -/
theorem enterBlocked_free {s : State} {n : Nat} (hb : (s.cell n).state ≠ .blocked) (ho : ∀ b, (s.cell n).state ≠ .occupied b) :
    s.enterBlocked n = s.setCell n ⟨.blocked, (s.cell n).stamp, 0⟩ := by
  have hbin : (s.cell n).state.bin = none := by
    cases h : (s.cell n).state with
    | occupied b => exact absurd h (ho b)
    | _ => rfl
  rw [State.enterBlocked, if_neg hb, hbin]
  rfl

theorem enterBlocked_occupied {s : State} {n b : Nat} (h : (s.cell n).state = .occupied b) :
    s.enterBlocked n = (s.setBin b { s.bin b with place := .misplaced }).setCell n ⟨.blocked, (s.cell n).stamp, 0⟩ := by
  rw [State.enterBlocked, if_neg (by rw [h]; exact CellState.noConfusion), h]
  rfl

theorem enterSuspect_free {s : State} {n : Nat} (hb : (s.cell n).state ≠ .suspect) (ho : ∀ b, (s.cell n).state ≠ .occupied b) :
    s.enterSuspect n = (s.setCell n ⟨.suspect, (s.cell n).stamp, 0⟩).raise .S (.susp n none) := by
  have hbin : (s.cell n).state.bin = none := by
    cases h : (s.cell n).state with
    | occupied b => exact absurd h (ho b)
    | _ => rfl
  rw [State.enterSuspect, if_neg hb, hbin]
  rfl

theorem enterSuspect_occupied {s : State} {n b : Nat} (h : (s.cell n).state = .occupied b) :
    s.enterSuspect n =
      ((s.setBin b { s.bin b with place := .misplaced }).setCell n ⟨.suspect, (s.cell n).stamp, 0⟩).raise .S (.susp n (some b)) := by
  rw [State.enterSuspect, if_neg (by rw [h]; exact CellState.noConfusion), h]
  rfl

theorem blocked_passed_over {s : State} {n : Nat} (h : (s.cell n).state = .blocked) (st : Station) (c : Crane) :
    s.destAccepts st n = false ∧ s.homeAccepts c n = false ∧ s.returnAccepts st n = false ∧ s.cursorTakes n = false := by
  simp [State.destAccepts, State.homeAccepts, State.returnAccepts, State.cursorTakes, State.visitable, h]

theorem ownToUnverified_taken {s : State} {n : Nat} {x : CellState} (hn : n < 3840) (h : (s.cell n).state = x) :
    ownToUnverified x n s = (s.setCell n ⟨.unverified, none, 0⟩, .ack [.named 0]) := by
  simp [ownToUnverified, (okCell_iff n).mpr hn, h, State.cellTo, Cell.toState, CellState.code]

theorem ownToUnverified_refused {s : State} {n : Nat} {x : CellState} (hn : n < 3840) (h : (s.cell n).state ≠ x) :
    ownToUnverified x n s = (s, .nak .cellState none) := by
  simp [ownToUnverified, (okCell_iff n).mpr hn, h, refuse]

/-- Settles O13: each request changes its one record, by the record's state. -/
theorem serviceSetsCellsAndFlags : Obligations.ServiceSetsCellsAndFlags := by
  refine ⟨⟨fun s n hs hn => ⟨fun h => ?_, fun h => ?_, fun h => ?_⟩, fun s st c n h => blocked_passed_over h st c⟩,
    fun s n hs hn => ⟨fun h => ?_, fun h => ?_, fun h => ?_, fun h => ?_⟩, fun s b hs hb => ⟨?_, ?_⟩⟩
  · have hfree : s.enterBlocked n = s.setCell n ⟨.blocked, (s.cell n).stamp, 0⟩ := by
      refine enterBlocked_free ?_ (fun b => ?_) <;> rcases h with h | h | h <;> simp [h]
    have hable : (s.cell n).state.blockable = true := by rcases h with h | h | h <;> simp [h, CellState.blockable]
    refine serve_acked hs rfl ?_
    simp [ownBlock, (okCell_iff n).mpr hn, hable, hfree, CellState.code]
  · refine serve_acked hs rfl ?_
    simp [ownBlock, (okCell_iff n).mpr hn, h, CellState.blockable, State.enterBlocked, CellState.code]
  · refine serve_refused hs rfl ?_
    rcases h with ⟨b, h⟩ | ⟨g, h⟩ <;> simp [ownBlock, (okCell_iff n).mpr hn, h, CellState.blockable, refuse]
  · exact serve_acked hs rfl (ownToUnverified_taken hn h)
  · exact serve_refused hs rfl (ownToUnverified_refused hn h)
  · exact serve_acked hs rfl (ownToUnverified_taken hn h)
  · exact serve_refused hs rfl (ownToUnverified_refused hn h)
  · refine serve_acked hs rfl ?_
    simp [ownQuar, (okBin_iff b).mpr hb]
  · refine serve_acked hs rfl ?_
    simp [ownQuar, (okBin_iff b).mpr hb]

/-! ## The moves of R30 -/

/-- Settles O16: each move written out; the load from a bay in its final records. -/
theorem binsMoveWhole : Obligations.BinsMoveWhole := by
  refine fun s c n st bay b keep => ⟨by simp [State.loadFromCell, State.cellTo, Cell.toState, State.binTo, State.setCarried], ?_,
    by simp [State.deliverToBay, State.binTo, State.setCarried],
    by simp [State.deliverToCell, State.cellTo, Cell.toState, State.binTo, State.setCarried]⟩
  rintro t rfl
  refine ⟨by cases c <;> rfl, by simp [State.loadFromBay, State.emptyBay, State.binTo, State.setCarried, Bay.cold],
    fun st' bay' h => ?_, ?_, ?_, ?_, fun i => ?_, fun m hm => ?_, ?_, ?_⟩
  · simpa [State.loadFromBay, State.emptyBay, State.binTo, State.setCarried] using State.setBay_bay_ne _ _ _ _ _ _ h
  · simp [State.loadFromBay, State.binTo, State.setCarried, Bin.revertClaims, Bin.revertPicks]
  · simp [State.loadFromBay, State.binTo, State.setCarried, State.emptyBay, Bin.revertClaims, Bin.revertPicks]
  · simp [State.loadFromBay, State.binTo, State.setCarried, State.emptyBay, Bin.revertClaims, Bin.revertPicks]
  · have hpick : ∀ x : Comp, (if (if x = .claimed then Comp.free else x) = .pendingPick then Comp.occupied
        else if x = .claimed then .free else x) = if x = .claimed then .free else if x = .pendingPick then .occupied else x := by
      intro x
      cases x <;> rfl
    simp [State.loadFromBay, State.binTo, State.setCarried, State.emptyBay, Bin.revertClaims, Bin.revertPicks, hpick,
      Function.comp_def]
  · simp [State.loadFromBay, State.binTo, State.setCarried, State.emptyBay, State.setBin_bin, hm]
  · simp [State.loadFromBay, State.binTo, State.setCarried, State.emptyBay]
  · simp [State.loadFromBay, State.binTo, State.setCarried, State.emptyBay, State.setCrane_crane, otherCrane_ne]

/-! ## Creation (R42, R45, R51) -/

/-- The lowest free slot (R42). -/
theorem freeSlot_some {s : State} {i : Nat} (h : s.freeSlot = some i) :
    i < 64 ∧ (s.slot i).order = none ∧ ∀ j, j < i → (s.slot j).order ≠ none := by
  unfold State.freeSlot slotNumbers at h
  obtain ⟨hp, as, bs, hl, hno⟩ := List.find?_eq_some_iff_append.mp h
  have hi : i < 64 := by
    have : i ∈ List.range 64 := by rw [hl]; simp
    simpa using this
  refine ⟨hi, by simpa using hp, fun j hj => ?_⟩
  have hmem : j ∈ as := by
    have hpw : (as ++ i :: bs).Pairwise (· < ·) := hl ▸ List.pairwise_lt_range
    have hj' : j ∈ as ++ i :: bs := by rw [← hl]; simp; omega
    rcases List.mem_append.mp hj' with hj' | hj'
    · exact hj'
    · have hge := (List.pairwise_append.mp hpw).2.1
      rcases List.mem_cons.mp hj' with rfl | hj'
      · exact absurd hj (lt_irrefl _)
      · have := (List.pairwise_cons.mp hge).1 j hj'
        omega
  have := hno j hmem
  simpa [Option.isSome_iff_ne_none] using this

theorem freeSlot_none {s : State} (h : s.freeSlot = none) {i : Nat} (hi : i < 64) : (s.slot i).order ≠ none := by
  have := List.find?_eq_none.mp h i (by simpa [slotNumbers] using hi)
  simpa [Option.isSome_iff_ne_none] using this

theorem bindBin_frame (s : State) (x : Option Nat) (h : Handle) : ∃ v, s.bindBin x h = { s with bins := v } := by
  cases x <;> exact ⟨_, rfl⟩

theorem reserveFor_frame (s : State) (o : Order) (h : Handle) : ∃ v, s.reserveFor o h = { s with cells := v } := by
  unfold State.reserveFor
  split
  · split <;> exact ⟨_, rfl⟩
  · exact ⟨_, rfl⟩

theorem clearWanted_frame (s : State) (o : Order) : ∃ v, s.clearWanted o = { s with bays := v } := by
  unfold State.clearWanted
  split <;> exact ⟨_, rfl⟩

theorem takeOrphan_frame (s : State) (o : Order) (h : Handle) :
    ∃ a b, s.takeOrphan o h = { s with craneA := a, craneB := b } := by
  unfold State.takeOrphan
  split
  · next c _ => cases c <;> exact ⟨_, _, rfl⟩
  all_goals exact ⟨_, _, rfl⟩

@[simp] theorem bindBin_cell (s : State) (x : Option Nat) (h : Handle) (n : Nat) : (s.bindBin x h).cell n = s.cell n := by
  obtain ⟨v, e⟩ := bindBin_frame s x h
  rw [e]
  rfl

@[simp] theorem bindBin_bay (s : State) (x : Option Nat) (h : Handle) (st : Station) (b : Nat) : (s.bindBin x h).bay st b = s.bay st b := by
  obtain ⟨v, e⟩ := bindBin_frame s x h
  rw [e]
  rfl

@[simp] theorem bindBin_slot (s : State) (x : Option Nat) (h : Handle) (j : Nat) : (s.bindBin x h).slot j = s.slot j := by
  obtain ⟨v, e⟩ := bindBin_frame s x h
  rw [e]
  rfl

@[simp] theorem bindBin_crane (s : State) (x : Option Nat) (h : Handle) (c : Crane) : (s.bindBin x h).crane c = s.crane c := by
  obtain ⟨v, e⟩ := bindBin_frame s x h
  rw [e]
  cases c <;> rfl

@[simp] theorem reserveFor_bin (s : State) (o : Order) (h : Handle) (b : Nat) : (s.reserveFor o h).bin b = s.bin b := by
  obtain ⟨v, e⟩ := reserveFor_frame s o h
  rw [e]
  rfl

@[simp] theorem reserveFor_bay (s : State) (o : Order) (h : Handle) (st : Station) (b : Nat) : (s.reserveFor o h).bay st b = s.bay st b := by
  obtain ⟨v, e⟩ := reserveFor_frame s o h
  rw [e]
  rfl

@[simp] theorem reserveFor_slot (s : State) (o : Order) (h : Handle) (j : Nat) : (s.reserveFor o h).slot j = s.slot j := by
  obtain ⟨v, e⟩ := reserveFor_frame s o h
  rw [e]
  rfl

@[simp] theorem reserveFor_crane (s : State) (o : Order) (h : Handle) (c : Crane) : (s.reserveFor o h).crane c = s.crane c := by
  obtain ⟨v, e⟩ := reserveFor_frame s o h
  rw [e]
  cases c <;> rfl

@[simp] theorem clearWanted_bin (s : State) (o : Order) (b : Nat) : (s.clearWanted o).bin b = s.bin b := by
  obtain ⟨v, e⟩ := clearWanted_frame s o
  rw [e]
  rfl

@[simp] theorem clearWanted_cell (s : State) (o : Order) (n : Nat) : (s.clearWanted o).cell n = s.cell n := by
  obtain ⟨v, e⟩ := clearWanted_frame s o
  rw [e]
  rfl

@[simp] theorem clearWanted_slot (s : State) (o : Order) (j : Nat) : (s.clearWanted o).slot j = s.slot j := by
  obtain ⟨v, e⟩ := clearWanted_frame s o
  rw [e]
  rfl

@[simp] theorem clearWanted_crane (s : State) (o : Order) (c : Crane) : (s.clearWanted o).crane c = s.crane c := by
  obtain ⟨v, e⟩ := clearWanted_frame s o
  rw [e]
  cases c <;> rfl

@[simp] theorem takeOrphan_bin (s : State) (o : Order) (h : Handle) (b : Nat) : (s.takeOrphan o h).bin b = s.bin b := by
  obtain ⟨x, y, e⟩ := takeOrphan_frame s o h
  rw [e]
  rfl

@[simp] theorem takeOrphan_cell (s : State) (o : Order) (h : Handle) (n : Nat) : (s.takeOrphan o h).cell n = s.cell n := by
  obtain ⟨x, y, e⟩ := takeOrphan_frame s o h
  rw [e]
  rfl

@[simp] theorem takeOrphan_bay (s : State) (o : Order) (h : Handle) (st : Station) (b : Nat) : (s.takeOrphan o h).bay st b = s.bay st b := by
  obtain ⟨x, y, e⟩ := takeOrphan_frame s o h
  rw [e]
  rfl

@[simp] theorem takeOrphan_slot (s : State) (o : Order) (h : Handle) (j : Nat) : (s.takeOrphan o h).slot j = s.slot j := by
  obtain ⟨x, y, e⟩ := takeOrphan_frame s o h
  rw [e]
  rfl

theorem bindBin_bin (s : State) (x : Option Nat) (h : Handle) (b : Nat) :
    (s.bindBin x h).bin b = if x = some b then { s.bin b with order := some h } else s.bin b := by
  cases x with
  | none => simp [State.bindBin]
  | some n =>
    simp only [State.bindBin, State.setBin_bin, Option.some.injEq]
    by_cases e : b = n
    · simp [e]
    · simp [e, Ne.symm e]

theorem reserveFor_cell (s : State) (o : Order) (h : Handle) (n : Nat) :
    (s.reserveFor o h).cell n =
      if o.kind.stows = true ∧ o.destCell = some n then ⟨.reserved h, (s.cell n).stamp, 0⟩ else s.cell n := by
  unfold State.reserveFor
  split
  · next hk =>
    cases hd : o.destCell with
    | none => simp
    | some m =>
      simp only [hk, true_and, State.reserveCell, State.cellTo, State.setCell_cell, Option.some.injEq]
      by_cases e : n = m
      · simp [e, Cell.toState]
      · simp [e, Ne.symm e]
  · next hk => simp [hk]

theorem clearWanted_bay (s : State) (o : Order) (st : Station) (b : Nat) :
    (s.clearWanted o).bay st b =
      if o.kind = .stow ∧ o.source = .bay st b then { s.bay st b with stowWanted := false } else s.bay st b := by
  unfold State.clearWanted
  split
  · next st' b' hk hs =>
    simp only [hk, hs, true_and, State.setStowWanted, setBay_bay, Prod.mk.injEq, Place.bay.injEq]
    by_cases e : st = st' ∧ b = b'
    · obtain ⟨rfl, rfl⟩ := e
      simp
    · rw [if_neg e, if_neg (fun h => e ⟨h.1.symm, h.2.symm⟩)]
  · next hno => rw [if_neg (fun h => hno _ _ h.1 h.2)]

theorem takeOrphan_crane (s : State) (o : Order) (h : Handle) (c : Crane) :
    (s.takeOrphan o h).crane c =
      if o.source = .crane c then { s.crane c with active := some h, orphan := false } else s.crane c := by
  unfold State.takeOrphan
  split
  · next c' hs =>
    simp only [hs, Place.crane.injEq, setCrane_crane]
    by_cases e : c = c'
    · simp [e]
    · simp [e, Ne.symm e]
  all_goals simp [*]

/-! ### What filling a slot leaves (R51) -/

theorem fillSlot_slot (s : State) (i : Nat) (o : Order) (j : Nat) :
    (s.fillSlot i o).slot j = if j = i then ⟨(s.newHandle i).gen, some { o with seq := s.counter }⟩ else s.slot j := by
  simp [State.fillSlot, State.setSlot_slot]

theorem fillSlot_bin (s : State) (i : Nat) (o : Order) (b : Nat) :
    (s.fillSlot i o).bin b = if o.bin = some b then { s.bin b with order := some (s.newHandle i) } else s.bin b := by
  simp [State.fillSlot, bindBin_bin]

theorem fillSlot_cell (s : State) (i : Nat) (o : Order) (n : Nat) :
    (s.fillSlot i o).cell n =
      if o.kind.stows = true ∧ o.destCell = some n then ⟨.reserved (s.newHandle i), (s.cell n).stamp, 0⟩ else s.cell n := by
  simp [State.fillSlot, reserveFor_cell]

theorem fillSlot_bay (s : State) (i : Nat) (o : Order) (st : Station) (b : Nat) :
    (s.fillSlot i o).bay st b =
      if o.kind = .stow ∧ o.source = .bay st b then { s.bay st b with stowWanted := false } else s.bay st b := by
  simp [State.fillSlot, clearWanted_bay]

theorem fillSlot_crane (s : State) (i : Nat) (o : Order) (c : Crane) :
    (s.fillSlot i o).crane c =
      if o.source = .crane c then { s.crane c with active := some (s.newHandle i), orphan := false } else s.crane c := by
  simp [State.fillSlot, takeOrphan_crane]

theorem fillSlot_frame (s : State) (i : Nat) (o : Order) :
    ∃ bins cells bays slots a b, s.fillSlot i o =
      { s with bins := bins, cells := cells, bays := bays, slots := slots, counter := s.counter + 1, craneA := a, craneB := b } := by
  unfold State.fillSlot
  dsimp only
  obtain ⟨v, h1⟩ := bindBin_frame ((s.setSlot i ⟨(s.newHandle i).gen, some { o with seq := s.counter }⟩).setCounter
    (s.counter + 1)) o.bin (s.newHandle i)
  rw [h1]
  obtain ⟨w, h2⟩ := reserveFor_frame _ o (s.newHandle i)
  rw [h2]
  obtain ⟨x, h3⟩ := clearWanted_frame _ o
  rw [h3]
  obtain ⟨a, b, h4⟩ := takeOrphan_frame _ o (s.newHandle i)
  rw [h4]
  exact ⟨_, _, _, _, _, _, rfl⟩

theorem create_some {s t : State} {o : Order} {h : Handle} (e : s.create o = some (t, h)) :
    ∃ i, s.freeSlot = some i ∧ t = s.fillSlot i o ∧ h = s.newHandle i := by
  unfold State.create at e
  split at e
  · cases e
  · next i hi =>
    cases e
    exact ⟨i, hi, rfl, rfl⟩

theorem create_eq {s : State} {i : Nat} (h : s.freeSlot = some i) (o : Order) :
    s.create o = some (s.fillSlot i o, s.newHandle i) := by
  simp [State.create, h]

/-- Age across the counter's wrap (R45). -/
theorem older_of_later {p q : Order} {n : Nat} (h0 : 0 < n) (h1 : n < 2147483648) (e : q.seq = p.seq + BitVec.ofNat 32 n) :
    p.older q = true ∧ q.older p = false := by
  have e1 : (q.seq - p.seq).toNat = n := by rw [e]; simp; omega
  have e2 : (p.seq - q.seq).toNat = 4294967296 - n := by rw [e]; simp; omega
  simp only [Order.older, e1, e2, decide_eq_true_eq, decide_eq_false_iff_not]
  omega

/-- Settles O17: a creation fills the lowest free slot; the counter's difference gives the age. -/
theorem creationNumbersTheOrder : Obligations.CreationNumbersTheOrder := by
  refine ⟨fun s o t h e => ?_, fun p q n h0 h1 e => older_of_later h0 h1 e⟩
  obtain ⟨i, hi, rfl, rfl⟩ := create_some e
  obtain ⟨hlt, hfree, hlow⟩ := freeSlot_some hi
  refine ⟨hlt, hfree, hlow, rfl, by simp [fillSlot_slot, State.newHandle], fun j hj => ?_, ?_, fun b hb => ?_⟩
  · rw [fillSlot_slot]
    exact if_neg hj
  · obtain ⟨_, _, _, _, _, _, h⟩ := fillSlot_frame s i o
    rw [h]
  · rw [fillSlot_bin, if_pos hb]

/-! ## The end of an order (R55) -/

@[simp] theorem unbindBin_cell (s : State) (x : Option Nat) (n : Nat) : (s.unbindBin x).cell n = s.cell n := by
  obtain ⟨v, e⟩ := unbindBin_frame s x
  rw [e]
  rfl

@[simp] theorem unbindBin_bay (s : State) (x : Option Nat) (st : Station) (b : Nat) : (s.unbindBin x).bay st b = s.bay st b := by
  obtain ⟨v, e⟩ := unbindBin_frame s x
  rw [e]
  rfl

@[simp] theorem unbindBin_slot (s : State) (x : Option Nat) (j : Nat) : (s.unbindBin x).slot j = s.slot j := by
  obtain ⟨v, e⟩ := unbindBin_frame s x
  rw [e]
  rfl

@[simp] theorem unbindBin_crane (s : State) (x : Option Nat) (c : Crane) : (s.unbindBin x).crane c = s.crane c := by
  obtain ⟨v, e⟩ := unbindBin_frame s x
  rw [e]
  cases c <;> rfl

@[simp] theorem unbindBin_portC (s : State) (x : Option Nat) : (s.unbindBin x).portC = s.portC := by
  obtain ⟨v, e⟩ := unbindBin_frame s x
  rw [e]

@[simp] theorem endReservation_bin (s : State) (o : Order) (h : Handle) (b : Nat) : (s.endReservation o h).bin b = s.bin b := by
  obtain ⟨v, e⟩ := endReservation_frame s o h
  rw [e]
  rfl

@[simp] theorem endReservation_bay (s : State) (o : Order) (h : Handle) (st : Station) (b : Nat) : (s.endReservation o h).bay st b = s.bay st b := by
  obtain ⟨v, e⟩ := endReservation_frame s o h
  rw [e]
  rfl

@[simp] theorem endReservation_slot (s : State) (o : Order) (h : Handle) (j : Nat) : (s.endReservation o h).slot j = s.slot j := by
  obtain ⟨v, e⟩ := endReservation_frame s o h
  rw [e]
  rfl

@[simp] theorem endReservation_crane (s : State) (o : Order) (h : Handle) (c : Crane) : (s.endReservation o h).crane c = s.crane c := by
  obtain ⟨v, e⟩ := endReservation_frame s o h
  rw [e]
  cases c <;> rfl

@[simp] theorem endReservation_portC (s : State) (o : Order) (h : Handle) : (s.endReservation o h).portC = s.portC := by
  obtain ⟨v, e⟩ := endReservation_frame s o h
  rw [e]

@[simp] theorem endBay_bin (s : State) (o : Order) (h : Handle) (b : Nat) : (s.endBay o h).bin b = s.bin b := by
  obtain ⟨v, e⟩ := endBay_frame s o h
  rw [e]
  rfl

@[simp] theorem endBay_cell (s : State) (o : Order) (h : Handle) (n : Nat) : (s.endBay o h).cell n = s.cell n := by
  obtain ⟨v, e⟩ := endBay_frame s o h
  rw [e]
  rfl

@[simp] theorem endBay_slot (s : State) (o : Order) (h : Handle) (j : Nat) : (s.endBay o h).slot j = s.slot j := by
  obtain ⟨v, e⟩ := endBay_frame s o h
  rw [e]
  rfl

@[simp] theorem endBay_crane (s : State) (o : Order) (h : Handle) (c : Crane) : (s.endBay o h).crane c = s.crane c := by
  obtain ⟨v, e⟩ := endBay_frame s o h
  rw [e]
  cases c <;> rfl

@[simp] theorem endBay_portC (s : State) (o : Order) (h : Handle) : (s.endBay o h).portC = s.portC := by
  obtain ⟨v, e⟩ := endBay_frame s o h
  rw [e]

@[simp] theorem endPicks_cell (s : State) (o : Order) (n : Nat) : (s.endPicks o).cell n = s.cell n := by
  obtain ⟨v, e⟩ := endPicks_frame s o
  rw [e]
  rfl

@[simp] theorem endPicks_bay (s : State) (o : Order) (st : Station) (b : Nat) : (s.endPicks o).bay st b = s.bay st b := by
  obtain ⟨v, e⟩ := endPicks_frame s o
  rw [e]
  rfl

@[simp] theorem endPicks_slot (s : State) (o : Order) (j : Nat) : (s.endPicks o).slot j = s.slot j := by
  obtain ⟨v, e⟩ := endPicks_frame s o
  rw [e]
  rfl

@[simp] theorem endPicks_crane (s : State) (o : Order) (c : Crane) : (s.endPicks o).crane c = s.crane c := by
  obtain ⟨v, e⟩ := endPicks_frame s o
  rw [e]
  cases c <;> rfl

@[simp] theorem endPicks_portC (s : State) (o : Order) : (s.endPicks o).portC = s.portC := by
  obtain ⟨v, e⟩ := endPicks_frame s o
  rw [e]

@[simp] theorem endCrane_bin (s : State) (o : Order) (h : Handle) (f : FinalState) (b : Nat) : (s.endCrane o h f).bin b = s.bin b := by
  obtain ⟨x, y, e⟩ := endCrane_frame s o h f
  rw [e]
  rfl

@[simp] theorem endCrane_cell (s : State) (o : Order) (h : Handle) (f : FinalState) (n : Nat) : (s.endCrane o h f).cell n = s.cell n := by
  obtain ⟨x, y, e⟩ := endCrane_frame s o h f
  rw [e]
  rfl

@[simp] theorem endCrane_bay (s : State) (o : Order) (h : Handle) (f : FinalState) (st : Station) (b : Nat) : (s.endCrane o h f).bay st b = s.bay st b := by
  obtain ⟨x, y, e⟩ := endCrane_frame s o h f
  rw [e]
  rfl

@[simp] theorem endCrane_slot (s : State) (o : Order) (h : Handle) (f : FinalState) (j : Nat) : (s.endCrane o h f).slot j = s.slot j := by
  obtain ⟨x, y, e⟩ := endCrane_frame s o h f
  rw [e]
  rfl

@[simp] theorem endCrane_portC (s : State) (o : Order) (h : Handle) (f : FinalState) : (s.endCrane o h f).portC = s.portC := by
  obtain ⟨x, y, e⟩ := endCrane_frame s o h f
  rw [e]

@[simp] theorem endNotice_bin (s : State) (o : Order) (h : Handle) (x : Option EndOutcome) (b : Nat) : (s.endNotice o h x).bin b = s.bin b := by
  obtain ⟨v, e⟩ := endNotice_frame s o h x
  rw [e]
  rfl

@[simp] theorem endNotice_cell (s : State) (o : Order) (h : Handle) (x : Option EndOutcome) (n : Nat) : (s.endNotice o h x).cell n = s.cell n := by
  obtain ⟨v, e⟩ := endNotice_frame s o h x
  rw [e]
  rfl

@[simp] theorem endNotice_bay (s : State) (o : Order) (h : Handle) (x : Option EndOutcome) (st : Station) (b : Nat) : (s.endNotice o h x).bay st b = s.bay st b := by
  obtain ⟨v, e⟩ := endNotice_frame s o h x
  rw [e]
  rfl

@[simp] theorem endNotice_slot (s : State) (o : Order) (h : Handle) (x : Option EndOutcome) (j : Nat) : (s.endNotice o h x).slot j = s.slot j := by
  obtain ⟨v, e⟩ := endNotice_frame s o h x
  rw [e]
  rfl

@[simp] theorem endNotice_crane (s : State) (o : Order) (h : Handle) (x : Option EndOutcome) (c : Crane) : (s.endNotice o h x).crane c = s.crane c := by
  obtain ⟨v, e⟩ := endNotice_frame s o h x
  rw [e]
  cases c <;> rfl

@[simp] theorem setOrder_bin (s : State) (i : Nat) (o : Option Order) (b : Nat) : (s.setOrder i o).bin b = s.bin b := rfl

@[simp] theorem setOrder_cell (s : State) (i : Nat) (o : Option Order) (n : Nat) : (s.setOrder i o).cell n = s.cell n := rfl

@[simp] theorem setOrder_bay (s : State) (i : Nat) (o : Option Order) (st : Station) (b : Nat) :
    (s.setOrder i o).bay st b = s.bay st b := rfl

@[simp] theorem setOrder_crane (s : State) (i : Nat) (o : Option Order) (c : Crane) : (s.setOrder i o).crane c = s.crane c := by
  cases c <;> rfl

theorem setOrder_slot (s : State) (i : Nat) (o : Option Order) (j : Nat) :
    (s.setOrder i o).slot j = if j = i then ⟨(s.slot i).gen, o⟩ else s.slot j := by
  simp [State.setOrder, State.setSlot_slot]

/-- The end of an order, its steps in order. -/
theorem endOrder_eq {s : State} {i : Nat} {o : Order} (h : (s.slot i).order = some o) (f : FinalState) (x : Option EndOutcome) :
    s.endOrder i f x =
      ((((((s.unbindBin o.bin).endReservation o (s.handleAt i)).endBay o (s.handleAt i)).endPicks o).endCrane o (s.handleAt i)
        f).setOrder i none).endNotice o (s.handleAt i) x := by
  simp [State.endOrder, h]

section endOrder

variable {s : State} {i : Nat} {o : Order} (h : (s.slot i).order = some o) (f : FinalState) (x : Option EndOutcome)
include h

theorem endOrder_slot (j : Nat) : (s.endOrder i f x).slot j = if j = i then ⟨(s.slot i).gen, none⟩ else s.slot j := by
  rw [endOrder_eq h]
  simp [setOrder_slot]

theorem endOrder_bin (b : Nat) :
    (s.endOrder i f x).bin b =
      if o.bin = some b then
        if o.kind = .fetch ∧ (s.bin b).place.isAtBay = false then { (s.bin b).revertPicks with order := none }
        else { s.bin b with order := none }
      else s.bin b := by
  rw [endOrder_eq h]
  simp only [endNotice_bin, setOrder_bin, endCrane_bin, endPicks_bin, endBay_bin, endReservation_bin, unbindBin_bin]
  by_cases hb : o.bin = some b
  · simp [hb, Bin.revertPicks]
  · simp [hb]

theorem endOrder_cell (n : Nat) :
    (s.endOrder i f x).cell n =
      if o.kind.stows = true ∧ o.destCell = some n ∧ (s.cell n).state = .reserved (s.handleAt i) then ⟨.empty, (s.cell n).stamp, 0⟩
      else s.cell n := by
  rw [endOrder_eq h]
  simp [endReservation_cell]

theorem endOrder_bay (st : Station) (b : Nat) :
    (s.endOrder i f x).bay st b =
      if o.kind = .fetch ∧ o.dest = some (.station st) ∧ o.destBay = some b ∧ (s.bay st b).state = .inbound (s.handleAt i) then .cold
      else if (o.kind = .stow ∨ o.kind = .move) ∧ o.source = .bay st b ∧
          o.bin.map BayState.outbound = some (s.bay st b).state then
        { s.bay st b with state := .occupied (o.bin.getD 0) }
      else s.bay st b := by
  rw [endOrder_eq h]
  simp [endBay_bay]

theorem endOrder_crane (c : Crane) :
    (s.endOrder i f x).crane c =
      if c = o.crane ∧ (s.crane c).active = some (s.handleAt i) then
        { s.crane c with
          active := none
          lastCompleted := some (s.handleAt i)
          orphan := (s.crane c).orphan || decide (o.state = .loaded ∧ f ≠ .complete) }
      else s.crane c := by
  rw [endOrder_eq h]
  simp [endCrane_crane]

theorem endOrder_portC :
    (s.endOrder i f x).portC =
      match x with
      | some y =>
        if o.issuer = .C ∧ o.kind = .fetch then s.portC.offer (.ended (s.handleAt i) o.loan y) else s.portC
      | none => s.portC := by
  rw [endOrder_eq h]
  cases x with
  | none => simp [State.endNotice, State.setOrder]
  | some y =>
    simp only [State.endNotice]
    split <;> simp [State.raise, State.setPort, State.setOrder]

end endOrder

/-- Nothing but the directory, the order slots, the crane records and port C differs. -/
def SameButOrders (s t : State) : Prop :=
  t = { s with bins := t.bins, cells := t.cells, bays := t.bays, slots := t.slots, craneA := t.craneA, craneB := t.craneB,
               portC := t.portC }

theorem SameButOrders.trans {s t u : State} (h : SameButOrders s t) (g : SameButOrders t u) : SameButOrders s u := by
  unfold SameButOrders at *
  rw [h] at g
  exact g

theorem endOrder_frame (s : State) (i : Nat) (f : FinalState) (x : Option EndOutcome) : SameButOrders s (s.endOrder i f x) := by
  cases h : (s.slot i).order with
  | none =>
    rw [State.endOrder, h]
    rfl
  | some o =>
    have hbin : ∀ (u : State) y, SameButOrders u (u.unbindBin y) := fun u y => by
      obtain ⟨v, e⟩ := unbindBin_frame u y
      rw [e]
      rfl
    have hres : ∀ (u : State) g, SameButOrders u (u.endReservation o g) := fun u g => by
      obtain ⟨v, e⟩ := endReservation_frame u o g
      rw [e]
      rfl
    have hbay : ∀ (u : State) g, SameButOrders u (u.endBay o g) := fun u g => by
      obtain ⟨v, e⟩ := endBay_frame u o g
      rw [e]
      rfl
    have hpick : ∀ u : State, SameButOrders u (u.endPicks o) := fun u => by
      obtain ⟨v, e⟩ := endPicks_frame u o
      rw [e]
      rfl
    have hcrane : ∀ (u : State) g, SameButOrders u (u.endCrane o g f) := fun u g => by
      obtain ⟨a, b, e⟩ := endCrane_frame u o g f
      rw [e]
      rfl
    have hnote : ∀ (u : State) g, SameButOrders u (u.endNotice o g x) := fun u g => by
      obtain ⟨q, e⟩ := endNotice_frame u o g x
      rw [e]
      rfl
    rw [endOrder_eq h]
    exact (((((hbin s _).trans (hres _ _)).trans (hbay _ _)).trans (hpick _)).trans (hcrane _ _)).trans
      (.trans (show SameButOrders _ (State.setOrder _ i none) from rfl) (hnote _ _))

theorem stows_iff (k : OrderKind) : k.stows = true ↔ k = .stow ∨ k = .move := by cases k <;> simp [OrderKind.stows]

theorem destCell_iff (o : Order) (n : Nat) : o.destCell = some n ↔ o.dest = some (.cell n) := by
  unfold Order.destCell
  cases o.dest with
  | none => simp
  | some p => cases p <;> simp [Place.cellOf]

/-- Settles O18: the end of an order, table by table. -/
theorem orderEnds : Obligations.OrderEnds := by
  rintro s i o f x t h rfl
  refine ⟨?_, endOrder_slot h f x, fun b => ?_, fun b => ?_, fun b => ?_, fun n => ?_, endOrder_bay h f x, endOrder_crane h f x,
    endOrder_portC h f x⟩
  · exact endOrder_frame s i f x
  · rw [endOrder_bin h]
    split
    · split <;> rfl
    · rfl
  · rw [endOrder_bin h]
    split
    · split <;> exact ⟨rfl, rfl⟩
    · exact ⟨rfl, rfl⟩
  · rw [endOrder_bin h]
    by_cases hb : o.bin = some b
    · by_cases hk : o.kind = .fetch ∧ (s.bin b).place.isAtBay = false
      · simp [hb, hk, Bin.revertPicks]
      · rw [if_pos hb, if_neg hk, if_neg (fun e => hk e.2)]
    · simp [hb]
  · rw [endOrder_cell h]
    simp only [stows_iff, destCell_iff, State.handleAt]

/-! ## CANCEL (R59, R60) -/

theorem serviceFinal_eq (x : OrderState) : x.serviceFinal = if x = .loaded then .failed else .cancelled := by cases x <;> rfl

theorem exec_cancelC (i g : Nat) (s : State) :
    exec (.cancel .C i g) s = serve .C .cancel (bodyNum2 1 1) (i, g) ownCancel false s := rfl

/-- Settles O19: the order that the handle names, by its issuer, kind and state. -/
theorem cancelEndsAnOrder : Obligations.CancelEndsAnOrder := by
  refine ⟨fun s i g hs hi => ⟨fun o ho h1 h2 h3 => ?_, fun hno => ?_⟩, fun s i g hs hi => ⟨fun o ho => ?_, fun ho => ?_⟩⟩
  · rw [exec_cancelC]
    exact serve_acked hs rfl (by simp [ownCancel, (okSlot_iff i).mpr hi, ho, h1, h2, h3])
  · rw [exec_cancelC]
    refine serve_refused hs rfl ?_
    cases ho : s.orderOf ⟨i, g⟩ with
    | none => simp [ownCancel, (okSlot_iff i).mpr hi, ho, refuse]
    | some o => simp [ownCancel, (okSlot_iff i).mpr hi, ho, hno o ho, refuse]
  · exact serve_acked hs rfl (by simp [ownServiceCancel, (okSlot_iff i).mpr hi, ho, serviceFinal_eq])
  · exact serve_refused hs rfl (by simp [ownServiceCancel, (okSlot_iff i).mpr hi, ho, refuse])

/-! ## MOVE (R52, R53) -/

theorem creationRefusal_none {s : State} {i : Nat} {bin : Option Nat} (k : OrderKind) (hb : ∀ b, bin = some b → (s.bin b).order = none)
    (hw : s.sched.wing = .normal ∨ k = .verify) (hi : s.freeSlot = some i) : s.creationRefusal bin k = none := by
  have hany : bin.any (fun b => (s.bin b).order.isSome) = false := by
    cases bin with
    | none => rfl
    | some b => simp [hb b rfl]
  have hwing : ¬(s.sched.wing = .held ∧ k ≠ .verify) := fun h => by
    rcases hw with hw | hw
    · rw [hw] at h
      exact WingState.noConfusion h.1
    · exact h.2 hw
  simp [State.creationRefusal, hany, hwing, hi]

theorem creationRefusal_held {s : State} {bin : Option Nat} {k : OrderKind} (hb : ∀ b, bin = some b → (s.bin b).order = none)
    (hk : k ≠ .verify) (hw : s.sched.wing = .held) : s.creationRefusal bin k = some .wingHeld := by
  have hany : bin.any (fun b => (s.bin b).order.isSome) = false := by
    cases bin with
    | none => rfl
    | some b => simp [hb b rfl]
  simp [State.creationRefusal, hany, hw, hk]

theorem creationRefusal_full {s : State} {bin : Option Nat} (k : OrderKind) (hb : ∀ b, bin = some b → (s.bin b).order = none)
    (hw : s.sched.wing = .normal ∨ k = .verify) (hi : s.freeSlot = none) : s.creationRefusal bin k = some .tableFull := by
  have hany : bin.any (fun b => (s.bin b).order.isSome) = false := by
    cases bin with
    | none => rfl
    | some b => simp [hb b rfl]
  have hwing : ¬(s.sched.wing = .held ∧ k ≠ .verify) := fun h => by
    rcases hw with hw | hw
    · rw [hw] at h
      exact WingState.noConfusion h.1
    · exact h.2 hw
  simp [State.creationRefusal, hany, hwing, hi]

/-- The order that MOVE creates for a bin that stands in a cell or a bay (R44, R52, R53). -/
theorem moveOrder_placed {s : State} {b n a : Nat} {source : Place} {crane : Crane} {level : Nat}
    (h : (∃ m, (s.bin b).place = .stored m ∧ source = .cell m ∧
        crane = (if m / 24 < s.settings.split then .A else .B) ∧ level = m % 24 / 2) ∨
      ∃ st bay, (s.bin b).place = .atBay st bay ∧ source = .bay st bay ∧ crane = craneOf st ∧ level = n % 24 / 2) :
    s.moveOrder b n a = some (newOrder .move .service (some b) source (some (.cell n)) crane .S a none level) := by
  rcases h with ⟨m, h, rfl, rfl, rfl⟩ | ⟨st, bay, h, rfl, rfl, rfl⟩ <;> simp only [State.moveOrder, h] <;> rfl

/-- Filling a slot with a MOVE (R51). -/
theorem fillSlot_move (s : State) (i b n a : Nat) (source : Place) (crane : Crane) (level : Nat) (hs : ∀ c, source ≠ .crane c) :
    s.fillSlot i (newOrder .move .service (some b) source (some (.cell n)) crane .S a none level) =
      (((s.setSlot i ⟨(s.newHandle i).gen,
          some { newOrder .move .service (some b) source (some (.cell n)) crane .S a none level with seq := s.counter }⟩).setCounter
        (s.counter + 1)).setBin b { s.bin b with order := some (s.newHandle i) }).setCell n
          ⟨.reserved (s.newHandle i), (s.cell n).stamp, 0⟩ := by
  have horphan : ∀ (u : State) (o : Order) (h : Handle), o.source = source → u.takeOrphan o h = u := by
    rintro u o h rfl
    unfold State.takeOrphan
    split
    · next c e => exact absurd e (hs c)
    all_goals rfl
  unfold State.fillSlot
  dsimp only
  rw [horphan _ _ _ rfl]
  simp [newOrder, State.clearWanted, State.reserveFor, OrderKind.stows, Order.destCell, Place.cellOf, State.reserveCell,
    State.cellTo, State.bindBin, Cell.toState]

theorem place_not_onCrane {x : BinPlace} (h : (∃ m, x = .stored m) ∨ ∃ st bay, x = .atBay st bay) : x.isOnCrane = false := by
  rcases h with ⟨m, rfl⟩ | ⟨st, bay, rfl⟩ <;> rfl

/-- MOVE past its bounds and its bin's checks, where its order can be formed (R53). -/
theorem ownMove_placed {s : State} {b n a : Nat} {o : Order} (hb : b < 4096) (hn : n < 3840) (ha : a < 4)
    (ho : (s.bin b).order = none) (hp : (s.bin b).place.isOnCrane = false)
    (hm : s.moveOrder b n (effectiveAuthority a .S) = some o) :
    ownMove (b, n, a) s =
      if (s.cell n).state ≠ .empty then refuse s .cellState
      else
        match s.creationRefusal (some b) .move with
        | some r => refuse s r
        | none =>
          match s.create o with
          | none => refuse s .tableFull
          | some (t, h) => (t, .ack [.handle h, .num 1 (craneCode o.crane), .num 1 o.authority]) := by
  simp only [ownMove, (okBin_iff b).mpr hb, (okCell_iff n).mpr hn, (okAuthority_iff a).mpr ha, ho, hp, hm]
  rfl

/-- Settles O20: MOVE's checks in their order, then the creation of its order. -/
theorem moveCreatesAnOrder : Obligations.MoveCreatesAnOrder := by
  refine ⟨fun s b n a i source crane level hs hb hn ha ho hplace hc hw hi => ?_,
    fun s b n a hs hb hn ha => ⟨fun h => ?_, fun ho h => ?_, fun ho h => ?_⟩⟩
  · have hp : (s.bin b).place.isOnCrane = false :=
      place_not_onCrane (hplace.imp (fun ⟨m, h, _⟩ => ⟨m, h⟩) (fun ⟨st, bay, h, _⟩ => ⟨st, bay, h⟩))
    have hsrc : ∀ c, source ≠ .crane c := by
      rcases hplace with ⟨m, -, rfl, -⟩ | ⟨st, bay, -, rfl, -⟩ <;> intro c <;> exact Place.noConfusion
    refine ⟨_, serve_acked hs rfl ?_, (fillSlot_move s i b n (max a 1) source crane level hsrc)⟩
    rw [ownMove_placed hb hn ha ho hp (moveOrder_placed hplace), if_neg (by simp [hc]),
      creationRefusal_none .move (by rintro b' ⟨⟩; exact ho) (.inl hw) hi]
    simp only [create_eq hi]
    rfl
  · refine serve_refused hs rfl ?_
    have hor : ((s.bin b).order.isSome || (s.bin b).place.isOnCrane) = true := by
      rw [Bool.or_eq_true, isOnCrane_iff]
      exact h.imp_left Option.isSome_iff_ne_none.mpr
    simp [ownMove, (okBin_iff b).mpr hb, (okCell_iff n).mpr hn, (okAuthority_iff a).mpr ha, hor, refuse]
  · refine serve_refused hs rfl ?_
    rcases h with h | h <;>
      simp [ownMove, (okBin_iff b).mpr hb, (okCell_iff n).mpr hn, (okAuthority_iff a).mpr ha, ho, h, BinPlace.isOnCrane,
        State.moveOrder, refuse]
  · have hp := place_not_onCrane h
    have hbin : ∀ b', some b = some b' → (s.bin b').order = none := by
      rintro b' ⟨⟩
      exact ho
    obtain ⟨o, hm⟩ : ∃ o, s.moveOrder b n (effectiveAuthority a .S) = some o := by
      rcases h with ⟨m, h⟩ | ⟨st, bay, h⟩ <;> simp [State.moveOrder, h]
    refine ⟨fun hc => ?_, fun hc hw => ?_, fun hc hw hi => ?_⟩ <;>
      refine serve_refused hs rfl ?_ <;> rw [ownMove_placed hb hn ha ho hp hm]
    · rw [if_pos hc]
      rfl
    · rw [if_neg (by simp [hc]), creationRefusal_held hbin (by decide) hw]
      rfl
    · rw [if_neg (by simp [hc]), creationRefusal_full .move hbin (.inl hw) hi]
      rfl

/-! ## Suspicion and re-destination (R25 to R27, R54) -/

theorem releaseDest_cell {s : State} {o : Order} {n : Nat} (h : o.dest = some (.cell n)) (g : Handle) :
    s.releaseDest o g = if (s.cell n).state = .reserved g then s.setCell n ⟨.empty, (s.cell n).stamp, 0⟩ else s := by
  simp only [State.releaseDest, (destCell_iff o n).mpr h, State.releaseCell]
  rfl

/-- Settles O21: the two cell transitions by what the cell recorded; re-destination by its scan. -/
theorem suspicionAndRedestination : Obligations.SuspicionAndRedestination := by
  refine ⟨fun s n => ⟨fun h => by simp [State.enterSuspect, h], fun h => by simp [State.enterBlocked, h],
    fun b h => ⟨enterSuspect_occupied h, enterBlocked_occupied h⟩,
    fun h => ⟨fun h' => enterSuspect_free h' h, fun h' => enterBlocked_free h' h⟩⟩, ?_⟩
  rintro s i g o old r hslot hdest rfl
  have hh : s.handleAt i = ⟨i, g⟩ := by simp [State.handleAt, hslot]
  rw [← releaseDest_cell hdest]
  have hsl : (s.releaseDest o ⟨i, g⟩).slot i = ⟨g, some o⟩ := by
    rw [releaseDest_cell hdest]
    split <;> simpa using hslot
  refine ⟨fun n hn => ?_, fun hn => ?_⟩
  · simp only [State.redestine, hslot, hh, State.redestScan, hn]
    simp only [State.setOrder, State.reserveCell, State.cellTo, State.setCell_slot, hsl]
    rfl
  · simp only [State.redestine, hslot, hh, State.redestScan, hn]
    simp only [State.setOrder, hsl]

end Sys2Proof.Machine

end
/-! # The end of an event, the dispatcher and the reports -/
section
namespace Sys2Proof.Machine

/-! ## The evaluation of waiting cranes -/

theorem mem_liveOrders (s : State) (i : Nat) (o : Order) : (i, o) ∈ s.liveOrders ↔ i < 64 ∧ (s.slot i).order = some o := by
  simp [State.liveOrders, slotNumbers, List.mem_filterMap]

theorem mem_eligibleOrders (s : State) (x : Crane) (i : Nat) (o : Order) :
    (i, o) ∈ s.eligibleOrders x ↔ (i < 64 ∧ (s.slot i).order = some o) ∧ s.eligible x o = true := by
  simp [State.eligibleOrders, mem_liveOrders]

theorem eligibleOrders_still (s : State) (x : Crane) : s.still.eligibleOrders x = s.eligibleOrders x := by cases x <;> rfl

theorem eligibleOrders_evalWaiting (s : State) (y : Crane) (b : Bool) (x : Crane) :
    (s.evalWaiting y b).eligibleOrders x = s.eligibleOrders x := by
  rw [← eligibleOrders_still, still_evalWaiting, eligibleOrders_still]

/-- A waiting crane with work is told, and waits no more. -/
theorem evalWaiting_told {s : State} {x : Crane} {b : Bool} (hw : (s.crane x).isWaiting = true)
    (h : b = true ∨ 0 < (s.eligibleOrders x).length) :
    s.evalWaiting x b =
      (s.setCrane x { s.crane x with waiting := false }).raise (portOf x) (.wait x (s.eligibleOrders x).length) := by
  simp [State.evalWaiting, hw, h]

theorem evalWaiting_idle {s : State} {x : Crane} {b : Bool}
    (h : (s.crane x).isWaiting = false ∨ b = false ∧ (s.eligibleOrders x).length = 0) : s.evalWaiting x b = s := by
  rcases h with h | ⟨rfl, h⟩ <;> simp [State.evalWaiting, h]

theorem raise_port_same (s : State) (p : Port) (n : Notice) : (s.raise p n).port p = (s.port p).offer n := by
  simp [State.raise]

theorem raise_port_ne (s : State) {p q : Port} (n : Notice) (h : q ≠ p) : (s.raise p n).port q = s.port q :=
  State.setPort_port_ne _ _ _ _ h

@[simp] theorem raise_crane (s : State) (p : Port) (n : Notice) (x : Crane) : (s.raise p n).crane x = s.crane x := by
  simp [State.raise]

theorem evalWaiting_crane_ne (s : State) {x y : Crane} (b : Bool) (h : y ≠ x) : (s.evalWaiting x b).crane y = s.crane y := by
  unfold State.evalWaiting
  dsimp only
  split
  · rw [raise_crane, State.setCrane_crane_ne _ _ _ _ h]
  · rfl

theorem evalWaiting_port_ne (s : State) {x : Crane} {q : Port} (b : Bool) (h : q ≠ portOf x) :
    (s.evalWaiting x b).port q = s.port q := by
  unfold State.evalWaiting
  dsimp only
  split
  · rw [raise_port_ne _ _ h, State.setCrane_port]
  · rfl

/-- What the evaluation of crane X does to its record and its port, from what it reads of them alone. -/
theorem evalWaiting_congr {s t : State} {x : Crane} (b : Bool) (hc : t.crane x = s.crane x)
    (hp : t.port (portOf x) = s.port (portOf x)) (he : t.eligibleOrders x = s.eligibleOrders x) :
    (t.evalWaiting x b).crane x = (s.evalWaiting x b).crane x ∧
      (t.evalWaiting x b).port (portOf x) = (s.evalWaiting x b).port (portOf x) := by
  simp only [State.evalWaiting, hc, he]
  split
  · simp [raise_port_same, hp]
  · exact ⟨hc, hp⟩

/-- The evaluation of crane X at the end of an event, where it is asked for. -/
def evalAsked (s t : State) (x : Crane) (asked credit : Bool) : State :=
  if asked || credit || waitTrigger x s t then t.evalWaiting x credit else t

theorem evalAsked_crane_ne (s t : State) {x y : Crane} (a b : Bool) (h : y ≠ x) : (evalAsked s t x a b).crane y = t.crane y := by
  unfold evalAsked
  split
  · exact evalWaiting_crane_ne t b h
  · rfl

theorem evalAsked_port_ne (s t : State) {x : Crane} {q : Port} (a b : Bool) (h : q ≠ portOf x) :
    (evalAsked s t x a b).port q = t.port q := by
  unfold evalAsked
  split
  · exact evalWaiting_port_ne t b h
  · rfl

/-- The two cranes are evaluated each on its own: crane X's record and port are as its own evaluation leaves them. -/
theorem evalCranes_each (s t : State) (al a b : Bool) (x : Crane) :
    (evalCranes s t al a b).crane x = (evalAsked s t x al (if x = .A then a else b)).crane x ∧
      (evalCranes s t al a b).port (portOf x) = (evalAsked s t x al (if x = .A then a else b)).port (portOf x) := by
  have hshape : evalCranes s t al a b =
      if al || b || waitTrigger .B s t then (evalAsked s t .A al a).evalWaiting .B b else evalAsked s t .A al a := rfl
  rw [hshape]
  cases x with
  | A =>
    split
    · exact ⟨evalWaiting_crane_ne _ _ (by decide), evalWaiting_port_ne _ _ (by decide)⟩
    · exact ⟨rfl, rfl⟩
  | B =>
    have hc := evalAsked_crane_ne s t al a (x := .A) (y := .B) (by decide)
    have hp := evalAsked_port_ne s t al a (x := .A) (q := portOf .B) (by decide)
    have he : (evalAsked s t .A al a).eligibleOrders .B = t.eligibleOrders .B := by
      unfold evalAsked
      split
      · exact eligibleOrders_evalWaiting ..
      · rfl
    simp only [evalAsked, reduceCtorEq, if_false]
    split
    · exact evalWaiting_congr b hc hp he
    · exact ⟨hc, hp⟩

theorem evalCranes_port_other (s t : State) (al a b : Bool) {q : Port} (hA : q ≠ .A) (hB : q ≠ .B) :
    (evalCranes s t al a b).port q = t.port q := by
  have hshape : evalCranes s t al a b =
      if al || b || waitTrigger .B s t then (evalAsked s t .A al a).evalWaiting .B b else evalAsked s t .A al a := rfl
  rw [hshape]
  split
  · rw [evalWaiting_port_ne _ _ (show q ≠ portOf .B from hB), evalAsked_port_ne _ _ _ _ (show q ≠ portOf .A from hA)]
  · rw [evalAsked_port_ne _ _ _ _ (show q ≠ portOf .A from hA)]

theorem finish_crane (s t : State) (x : Crane) : (finish s t).crane x = (evalAsked s t x false false).crane x := by
  rw [finish, pump_crane, (evalCranes_each ..).1]
  simp

theorem finish_port (s t : State) (x : Crane) :
    (finish s t).port (portOf x) = ((evalAsked s t x false false).port (portOf x)).pump := by
  rw [finish, pump_port, (evalCranes_each ..).2]
  simp

theorem queueChanged_iff (x : Crane) (s t : State) :
    queueChanged x s t = true ↔
      ∃ i o, i < 64 ∧ (t.slot i).order = some o ∧ o.state = .queued ∧ o.crane = x ∧
        ((s.slot i).gen ≠ (t.slot i).gen ∨ ∀ q, (s.slot i).order = some q → q.dest ≠ o.dest) := by
  have hdest : ∀ (r : Option Order) (d : Option Place),
      r.map (fun o => o.dest) ≠ some d ↔ ∀ q, r = some q → q.dest ≠ d := fun r d => by cases r <;> simp
  simp only [queueChanged, List.any_eq_true, Prod.exists, mem_liveOrders, Bool.and_eq_true, Bool.or_eq_true, beq_iff_eq, bne_iff_ne,
    hdest, and_assoc]

/-- What R76 names, read from two states (log 14). -/
theorem waitTrigger_iff (x : Crane) (s t : State) :
    waitTrigger x s t = true ↔
      (∃ i o, i < 64 ∧ (t.slot i).order = some o ∧ o.state = .queued ∧ o.crane = x ∧
          ((s.slot i).gen ≠ (t.slot i).gen ∨ ∀ q, (s.slot i).order = some q → q.dest ≠ o.dest)) ∨
        (∃ z, z < 4 ∧ (s.zone z).state ≠ (t.zone z).state) ∨
        (∃ n, n < 42 ∧ (s.seg n).holder ≠ (t.seg n).holder) ∨
        (∃ k, k < 3 ∧ (s.shutter k).state ≠ (t.shutter k).state) ∨
        (∃ b, b < 2 ∧ (s.bay (stationOf x) b).state.code ≠ (t.bay (stationOf x) b).state.code) ∨
        s.sched.wing ≠ t.sched.wing := by
  have hzones : zoneNumbers = List.range 4 := rfl
  have hshutters : shutterNumbers = List.range 3 := rfl
  have hbays : [0, 1] = List.range 2 := rfl
  simp only [waitTrigger, Bool.or_eq_true, queueChanged_iff, hzones, hshutters, hbays, segmentNumbers, List.any_eq_true,
    List.mem_range, bne_iff_ne, or_assoc]

/-- Settles O22, crane by crane: each crane's evaluation reads and writes its own record and port alone. -/
theorem waitingCranesAreTold : Obligations.WaitingCranesAreTold := by
  refine ⟨fun s p k fields u => ?_, fun s t => ⟨?_, ?_, ?_, fun x changed hch => ⟨fun hc hw ho ha hn => ?_, fun h => ?_⟩⟩⟩
  · rw [acked]
    split
    · next h => rw [h, conclude_assign]; rfl
    · next h => simp [conclude, h, finish, Reply.message, evalCranes]
  · rw [SameBlocks, still_finish]
  · have := congrArg LinkPort.pump (evalCranes_port_other s t false false false (q := .C) (by decide) (by decide))
    exact this
  · have := congrArg LinkPort.pump (evalCranes_port_other s t false false false (q := .S) (by decide) (by decide))
    exact this
  · have ht := (waitTrigger_iff x s t).mpr (hch.mp hc)
    have hwait : (t.crane x).isWaiting = true := by simp [CraneRec.isWaiting, hw, ho, ha]
    rw [finish_crane, finish_port, evalAsked, if_pos (by simp [ht]), evalWaiting_told hwait (.inr hn)]
    simp [raise_port_same]
  · have hstays : evalAsked s t x false false = t := by
      unfold evalAsked
      split
      · next ha =>
        refine evalWaiting_idle ?_
        rcases h with h | h | h | h | h
        · exact absurd (hch.mpr ((waitTrigger_iff x s t).mp (by simpa using ha))) h
        · exact .inl (by simp [CraneRec.isWaiting, h])
        · exact .inl (by simp [CraneRec.isWaiting, h])
        · exact .inl (by simp [CraneRec.isWaiting, Option.isNone_eq_false_iff.mpr (Option.isSome_iff_ne_none.mpr h)])
        · exact .inr ⟨rfl, h⟩
      · rfl
    rw [finish_crane, finish_port, hstays]
    exact ⟨rfl, rfl⟩

end Sys2Proof.Machine
end
/-! # Selection, eligibility and dispatch -/
section
namespace Sys2Proof.Machine

/-! ## Selection (R70, R71) -/

/-- An order's creation number counted from a base. -/
def Order.age (base : BitVec 32) (o : Order) : Nat := (o.seq - base).toNat

/-- Within half the counter's range of a base, being older is having the lower number (R45). -/
theorem older_iff_age {base : BitVec 32} {p q : Order} (hp : p.age base < 2147483648) (hq : q.age base < 2147483648) :
    p.older q = true ↔ p.age base < q.age base := by
  unfold Order.age at *
  simp only [Order.older, decide_eq_true_eq]
  have h : q.seq - p.seq = (q.seq - base) - (p.seq - base) := by bv_omega
  rw [h]
  generalize q.seq - base = a at *
  generalize p.seq - base = b at *
  bv_omega

/-- Every age lies within half the counter's range (R45). -/
def AgesWithin (base : BitVec 32) (l : List (Nat × Order)) : Prop := ∀ e ∈ l, e.2.age base < 2147483648

theorem AgesWithin.filter {base : BitVec 32} {l : List (Nat × Order)} (h : AgesWithin base l) (f : Nat × Order → Bool) :
    AgesWithin base (l.filter f) := fun e he => h e (List.mem_filter.mp he).1

theorem foldl_olderOf_least {base : BitVec 32} (l : List (Nat × Order)) (a : Nat × Order) (h : AgesWithin base (a :: l)) :
    l.foldl olderOf a ∈ a :: l ∧ ∀ e ∈ a :: l, (l.foldl olderOf a).2.age base ≤ e.2.age base := by
  induction l generalizing a with
  | nil => simp
  | cons b l ih =>
    have ha := h a (by simp)
    have hb := h b (by simp)
    have hab : olderOf a b ∈ [a, b] ∧ (olderOf a b).2.age base ≤ a.2.age base ∧ (olderOf a b).2.age base ≤ b.2.age base := by
      unfold olderOf
      split
      · next hbt => exact ⟨by simp, ((older_iff_age hb ha).mp hbt).le, le_refl _⟩
      · next hnbt => exact ⟨by simp, le_refl _, not_lt.mp (fun g => hnbt ((older_iff_age hb ha).mpr g))⟩
    obtain ⟨hone, hlea, hleb⟩ := hab
    have hsub : ∀ e ∈ olderOf a b :: l, e ∈ a :: b :: l := fun e he => by
      rcases List.mem_cons.mp he with rfl | he
      · exact List.mem_append_left l hone
      · exact List.mem_cons_of_mem _ (List.mem_cons_of_mem _ he)
    obtain ⟨hmem, hle⟩ := ih (olderOf a b) (fun e he => h e (hsub e he))
    have hbest := hle (olderOf a b) List.mem_cons_self
    refine ⟨hsub _ hmem, fun e he => ?_⟩
    rcases List.mem_cons.mp he with rfl | he
    · exact hbest.trans hlea
    · rcases List.mem_cons.mp he with rfl | he
      · exact hbest.trans hleb
      · exact hle e (List.mem_cons_of_mem _ he)

theorem oldest_none {l : List (Nat × Order)} : oldest l = none ↔ l = [] := by cases l <;> simp [oldest]

/-- The oldest is one of them, and none of them is older (R45). -/
theorem oldest_least {base : BitVec 32} {l : List (Nat × Order)} (h : AgesWithin base l) {e : Nat × Order}
    (ho : oldest l = some e) : e ∈ l ∧ ∀ q ∈ l, q.2.older e.2 = false := by
  cases l with
  | nil => simp [oldest] at ho
  | cons a l =>
    obtain ⟨hmem, hle⟩ := foldl_olderOf_least l a h
    simp only [oldest, Option.some.injEq] at ho
    subst ho
    refine ⟨hmem, fun q hq => Bool.eq_false_iff.mpr fun hold => ?_⟩
    exact absurd ((older_iff_age (h q hq) (h _ hmem)).mp hold) (not_lt.mpr (hle q hq))

theorem foldl_min_authority (l : List (Nat × Order)) (m : Nat) :
    (l.foldl (fun m e => min m e.2.authority) m = m ∨ ∃ e ∈ l, l.foldl (fun m e => min m e.2.authority) m = e.2.authority) ∧
      l.foldl (fun m e => min m e.2.authority) m ≤ m ∧ ∀ e ∈ l, l.foldl (fun m e => min m e.2.authority) m ≤ e.2.authority := by
  induction l generalizing m with
  | nil => simp
  | cons a l ih =>
    obtain ⟨hin, hm, hle⟩ := ih (min m a.2.authority)
    simp only [List.foldl_cons, List.mem_cons, forall_eq_or_imp, exists_eq_or_imp]
    refine ⟨?_, hm.trans (min_le_left _ _), hm.trans (min_le_right _ _), hle⟩
    rcases hin with h | h
    · rcases min_choice m a.2.authority with g | g
      · exact .inl (h.trans g)
      · exact .inr (.inl (h.trans g))
    · exact .inr (.inr h)

/-- The lowest authority number is that of one of the orders, and none has a lower one (R70). -/
theorem lowestAuthority_least {l : List (Nat × Order)} (h : l ≠ []) :
    (∃ e ∈ l, e.2.authority = lowestAuthority l) ∧ ∀ e ∈ l, lowestAuthority l ≤ e.2.authority := by
  cases l with
  | nil => exact absurd rfl h
  | cons a l =>
    obtain ⟨hin, hm, hle⟩ := foldl_min_authority l a.2.authority
    refine ⟨?_, fun e he => ?_⟩
    · rcases hin with g | ⟨e, he, g⟩
      · exact ⟨a, by simp, g.symm⟩
      · exact ⟨e, by simp [he], g.symm⟩
    · rcases List.mem_cons.mp he with rfl | he
      · exact hm
      · exact hle e he

/-- The candidates are the eligible orders that no eligible one precedes in authority (R70). -/
theorem mem_candidates (s : State) (x : Crane) (e : Nat × Order) :
    e ∈ s.candidates x ↔ e ∈ s.eligibleOrders x ∧ ∀ q ∈ s.eligibleOrders x, e.2.authority ≤ q.2.authority := by
  simp only [State.candidates, List.mem_filter, beq_iff_eq]
  refine and_congr_right fun he => ?_
  obtain ⟨⟨w, hw, ew⟩, hle⟩ := lowestAuthority_least (List.ne_nil_of_mem he)
  constructor
  · intro h q hq
    exact h ▸ hle q hq
  · intro h
    exact le_antisymm (ew ▸ h w hw) (hle e he)

theorem candidates_ne_nil {s : State} {x : Crane} (h : s.eligibleOrders x ≠ []) : s.candidates x ≠ [] := by
  obtain ⟨⟨w, hw, ew⟩, -⟩ := lowestAuthority_least h
  exact List.ne_nil_of_mem (List.mem_filter.mpr ⟨hw, beq_iff_eq.mpr ew⟩)

theorem candidates_nil {s : State} {x : Crane} (h : s.eligibleOrders x = []) : s.candidates x = [] := by
  simp [State.candidates, h]

theorem choose_nil (level : Nat) : choose [] level = none := rfl

theorem choose_ne_none {l : List (Nat × Order)} (h : l ≠ []) (level : Nat) : choose l level ≠ none := by
  unfold choose
  split
  · next e => exact absurd (oldest_none.mp e) h
  · split
    · simp
    · split
      · simp
      · split <;> simp

/-- What the level preference answers (R71): one of the orders, with those older than it each below the cap and of another
level, and none of them where the order is not of the reported level. -/
theorem choose_sound {base : BitVec 32} {l : List (Nat × Order)} (hage : AgesWithin base l) {level i : Nat} {raised : List Nat}
    (h : choose l level = some (i, raised)) :
    ∃ o, (i, o) ∈ l ∧ (raised ≠ [] → o.level = level) ∧
      (∀ j ∈ raised, ∃ q, (j, q) ∈ l ∧ q.older o = true ∧ q.bypass < 3 ∧ q.level ≠ level) ∧
      ∀ e ∈ l, e.2.older o = true → e.1 ∈ raised := by
  have hfirst : ∀ o, oldest l = some o → some (o.1, ([] : List Nat)) = some (i, raised) →
      ∃ q, (i, q) ∈ l ∧ (raised ≠ [] → q.level = level) ∧
        (∀ j ∈ raised, ∃ r, (j, r) ∈ l ∧ r.older q = true ∧ r.bypass < 3 ∧ r.level ≠ level) ∧
        ∀ e ∈ l, e.2.older q = true → e.1 ∈ raised := by
    intro o ho e
    obtain ⟨hm, hold⟩ := oldest_least hage ho
    cases e
    exact ⟨o.2, hm, fun g => absurd rfl g, by simp, fun e he g => by simp [hold e he] at g⟩
  unfold choose at h
  split at h
  · simp at h
  · next o ho =>
    split at h
    · exact hfirst o ho h
    · split at h
      · exact hfirst o ho h
      · next g hg =>
        split at h
        · next hcap =>
          obtain ⟨hm, hold⟩ := oldest_least (hage.filter _) hg
          obtain ⟨hm, hlev⟩ := List.mem_filter.mp hm
          cases h
          refine ⟨g.2, hm, fun _ => by simpa using hlev, fun j hj => ?_, fun e he ge => ?_⟩
          · obtain ⟨⟨j', q⟩, hq, rfl⟩ := List.mem_map.mp hj
            have hby := List.all_eq_true.mp hcap _ hq
            obtain ⟨hq, hqo⟩ := List.mem_filter.mp hq
            refine ⟨q, hq, hqo, by simpa using hby, fun elev => ?_⟩
            have := hold (j', q) (List.mem_filter.mpr ⟨hq, by simpa using elev⟩)
            simp [hqo] at this
          · exact List.mem_map.mpr ⟨e, List.mem_filter.mpr ⟨he, ge⟩, rfl⟩
        · exact hfirst o ho h

/-- The oldest order at the reported level is taken where every older one is below the cap (R71). -/
theorem choose_level {base : BitVec 32} {l : List (Nat × Order)} (hage : AgesWithin base l) {level i : Nat} {h : Order}
    (huniq : ∀ e ∈ l, e.1 = i → e.2 = h) (hm : (i, h) ∈ l) (hlev : h.level = level)
    (hold : ∀ e ∈ l, e.2.level = level → e.1 ≠ i → h.older e.2 = true)
    (hcap : ∀ e ∈ l, e.2.older h = true → e.2.bypass < 3) : ∃ raised, choose l level = some (i, raised) := by
  have hne : l ≠ [] := List.ne_nil_of_mem hm
  have hage' : ∀ e ∈ l, e.2.level = level → (∀ q ∈ l, q.2.level = level → q.2.older e.2 = false) → e.1 = i := by
    intro e he elev hno
    by_contra hei
    simpa [hno (i, h) hm hlev] using hold e he elev hei
  obtain ⟨o, ho⟩ := Option.ne_none_iff_exists'.mp (fun e => hne (oldest_none.mp e))
  obtain ⟨hom, hoo⟩ := oldest_least hage ho
  unfold choose
  rw [ho]
  dsimp only
  split
  · next elev => exact ⟨_, by rw [hage' o hom elev (fun q hq _ => hoo q hq)]⟩
  · have hmf : (i, h) ∈ l.filter (fun e => e.2.level == level) := List.mem_filter.mpr ⟨hm, by simpa using hlev⟩
    obtain ⟨g, hg⟩ := Option.ne_none_iff_exists'.mp (fun e => List.ne_nil_of_mem hmf (oldest_none.mp e))
    obtain ⟨hgm, hgo⟩ := oldest_least (hage.filter _) hg
    obtain ⟨hgl, hglev⟩ := List.mem_filter.mp hgm
    have hgi : g.1 = i := hage' g hgl (by simpa using hglev) fun q hq qlev =>
      hgo q (List.mem_filter.mpr ⟨hq, by simpa using qlev⟩)
    have hgh : g.2 = h := huniq g hgl hgi
    rw [hg]
    dsimp only
    rw [if_pos]
    · exact ⟨_, by rw [hgi]⟩
    · refine List.all_eq_true.mpr fun e he => ?_
      obtain ⟨hel, heo⟩ := List.mem_filter.mp he
      simpa using hcap e hel (hgh ▸ heo)

/-! ## Eligibility (R68, R69) -/

theorem foldl_min_least (l : List Nat) (m : Nat) : l.foldl min m ∈ m :: l ∧ ∀ e ∈ m :: l, l.foldl min m ≤ e := by
  induction l generalizing m with
  | nil => simp
  | cons a l ih =>
    obtain ⟨hin, hle⟩ := ih (min m a)
    simp only [List.foldl_cons, List.mem_cons, forall_eq_or_imp] at *
    refine ⟨?_, by omega, by omega, hle.2⟩
    rcases hin with h | h
    · omega
    · exact .inr (.inr h)

theorem foldl_max_greatest (l : List Nat) (m : Nat) : l.foldl max m ∈ m :: l ∧ ∀ e ∈ m :: l, e ≤ l.foldl max m := by
  induction l generalizing m with
  | nil => simp
  | cons a l ih =>
    obtain ⟨hin, hle⟩ := ih (max m a)
    simp only [List.foldl_cons, List.mem_cons, forall_eq_or_imp] at *
    refine ⟨?_, by omega, by omega, hle.2⟩
    rcases hin with h | h
    · omega
    · exact .inr (.inr h)

theorem cellOf_iff (p : Place) (n : Nat) : p.cellOf = some n ↔ p = .cell n := by cases p <;> simp [Place.cellOf]

/-- The cells an order visits (R68). -/
theorem mem_cells (o : Order) (n : Nat) :
    n ∈ o.cells ↔ o.kind ≠ .stow ∧ o.source = .cell n ∨ (o.kind = .stow ∨ o.kind = .move) ∧ o.dest = some (.cell n) := by
  unfold Order.cells
  cases o.kind <;> simp [cellOf_iff, destCell_iff]

/-- The station an order visits (R68). -/
theorem station_iff (o : Order) (st : Station) :
    o.station = some st ↔
      o.kind = .fetch ∧ o.dest = some (.station st) ∨ (o.kind = .stow ∨ o.kind = .move) ∧ ∃ b, o.source = .bay st b := by
  unfold Order.station
  cases o.kind with
  | fetch => cases o.dest with
    | none => simp
    | some p => cases p <;> simp
  | stow | move => cases o.source <;> simp
  | verify => simp

theorem currentSegment_eq (s : State) (x : Crane) :
    s.currentSegment x =
      match (s.crane x).ref with
      | some r => (max 0 (min 100799 r.x)).toNat / 2400
      | none => endSegment x := by
  unfold State.currentSegment
  cases (s.crane x).ref with
  | none => rfl
  | some r =>
    unfold segmentOfPosition clampRail railEnd
    dsimp only
    congr 1
    split
    · omega
    · split <;> omega

theorem mem_routePoints (s : State) (x : Crane) (o : Order) (e : Nat) :
    e ∈ s.routePoints x o ↔
      e = s.currentSegment x ∨ (∃ n, n ∈ o.cells ∧ e = 1 + n / 96) ∨ ∃ st, o.station = some st ∧ e = stationSegment st := by
  simp [State.routePoints, cellSegment, eq_comm]

/-- The run of the route is the segments between two of its points (R69). -/
theorem route_iff (s : State) (x : Crane) (o : Order) (g : Nat) :
    (s.routeLo x o ≤ g ∧ g ≤ s.routeHi x o) ↔
      ∃ a b, a ≤ g ∧ g ≤ b ∧ ∀ e, e = a ∨ e = b → e ∈ s.routePoints x o := by
  have hcons : ∀ e, e ∈ s.routePoints x o ↔ e ∈ s.currentSegment x :: s.routePoints x o := by simp [State.routePoints]
  obtain ⟨hlo, hlo'⟩ := foldl_min_least (s.routePoints x o) (s.currentSegment x)
  obtain ⟨hhi, hhi'⟩ := foldl_max_greatest (s.routePoints x o) (s.currentSegment x)
  constructor
  · rintro ⟨h1, h2⟩
    refine ⟨_, _, h1, h2, ?_⟩
    rintro e (rfl | rfl)
    · exact (hcons _).mpr hlo
    · exact (hcons _).mpr hhi
  · rintro ⟨a, b, h1, h2, h⟩
    exact ⟨(hlo' a ((hcons a).mp (h a (.inl rfl)))).trans h1, h2.trans (hhi' b ((hcons b).mp (h b (.inr rfl))))⟩

theorem shutterOpen_iff (s : State) (k : Nat) : s.shutterOpen k = true ↔ (s.shutter k).state = .open := by
  simp [State.shutterOpen]

theorem inService_iff (s : State) (z : Nat) : s.inService z = true ↔ (s.zone z).state = .inService := by
  simp [State.inService]

theorem spans_iff (k a b : Nat) : spans k a b = true ↔ a ≤ 10 * k + 10 ∧ 10 * k + 11 ≤ b := by
  unfold spans
  rw [decide_eq_true_eq]
  rfl

theorem forall_shutterNumbers {P : Nat → Prop} : (∀ k ∈ shutterNumbers, P k) ↔ ∀ k, k < 3 → P k := by
  have hrange : shutterNumbers = List.range 3 := rfl
  simp [hrange]

theorem routeFree_iff (s : State) (x : Crane) (o : Order) :
    s.routeFree x o = true ↔
      (∀ g, s.routeLo x o ≤ g ∧ g ≤ s.routeHi x o → (s.seg g).holder ≠ some (otherCrane x)) ∧
        ∀ k, k < 3 → (s.shutter k).state ≠ .open →
          ¬((s.routeLo x o ≤ 10 * k + 10 ∧ 10 * k + 10 ≤ s.routeHi x o) ∧
            s.routeLo x o ≤ 10 * k + 11 ∧ 10 * k + 11 ≤ s.routeHi x o) := by
  simp only [State.routeFree, Bool.and_eq_true, List.all_eq_true, mem_upTo, forall_shutterNumbers, Bool.or_eq_true,
    Bool.not_eq_true', ← Bool.not_eq_true, shutterOpen_iff, spans_iff, holds_eq_true]
  refine and_congr_right fun _ => forall_congr' fun k => imp_congr_right fun _ => ?_
  rw [or_iff_not_imp_left]
  exact imp_congr_right fun _ => by omega

theorem wingAllows_iff (s : State) (o : Order) :
    s.wingAllows o = true ↔ s.sched.wing = .normal ∨ o.kind = .verify ∧ ∀ n ∈ o.cells, zoneOfCell n ∈ s.sched.verifySet := by
  unfold State.wingAllows
  cases s.sched.wing <;> simp

theorem reachable_iff (s : State) (x : Crane) (o : Order) :
    s.reachable x o = true ↔
      (∀ n ∈ o.cells, (s.zone (zoneOfCell n)).state = .inService) ∧ s.routeFree x o = true ∧ s.wingAllows o = true := by
  simp [State.reachable, State.zoneOk, inService_iff, and_assoc]

theorem emptyBayOf_isSome (s : State) (st : Station) :
    (s.emptyBayOf st).isSome = true ↔ ∃ b, b < 2 ∧ (s.bay st b).state = .empty := by
  have hrange : ([0, 1] : List Nat) = List.range 2 := rfl
  rw [State.emptyBayOf, hrange]
  simp

theorem eligible_iff (s : State) (x : Crane) (o : Order) :
    s.eligible x o = true ↔
      o.state = .queued ∧ o.crane = x ∧ (o.kind = .stow ∨ o.kind = .move → o.dest ≠ none) ∧
        (∀ st, o.station = some st → (s.zone (zoneOfStation st)).state = .inService) ∧
        (o.kind = .fetch → ∃ st b, o.station = some st ∧ b < 2 ∧ (s.bay st b).state = .empty) ∧ s.reachable x o = true := by
  have hstows : (o.kind.stows = false ∨ o.dest.isSome = true) ↔ (o.kind = .stow ∨ o.kind = .move → o.dest ≠ none) := by
    rw [← Bool.not_eq_true, ← imp_iff_not_or, stows_iff, Option.isSome_iff_ne_none]
  have hany : (o.station.any fun st => (s.emptyBayOf st).isSome) = true ↔
      ∃ st b, o.station = some st ∧ b < 2 ∧ (s.bay st b).state = .empty := by
    cases o.station <;> simp [emptyBayOf_isSome]
  have hall : (o.station.all fun st => s.inService (zoneOfStation st)) = true ↔
      ∀ st, o.station = some st → (s.zone (zoneOfStation st)).state = .inService := by
    cases o.station <;> simp [inService_iff]
  have hfetch : ((o.kind != .fetch) = true ∨ (o.station.any fun st => (s.emptyBayOf st).isSome) = true) ↔
      (o.kind = .fetch → ∃ st b, o.station = some st ∧ b < 2 ∧ (s.bay st b).state = .empty) := by
    rw [hany, bne_iff_ne, imp_iff_not_or]
  simp only [State.eligible, Bool.and_eq_true, beq_iff_eq, Bool.or_eq_true, Bool.not_eq_true', hstows, hall, hfetch, and_assoc]

/-! ## Dispatch (R74) -/

theorem emptyBayOf_zero {s : State} {st : Station} (h : (s.bay st 0).state = .empty) : s.emptyBayOf st = some 0 := by
  simp [State.emptyBayOf, h]

theorem emptyBayOf_one {s : State} {st : Station} (h0 : (s.bay st 0).state ≠ .empty) (h1 : (s.bay st 1).state = .empty) :
    s.emptyBayOf st = some 1 := by
  simp [State.emptyBayOf, h0, h1]

/-- The dispatch of the order in a slot, from what it does at the bays (R74). -/
theorem dispatch_eq {s t : State} {x : Crane} {i g : Nat} {o q : Order} (h : s.slot i = ⟨g, some o⟩)
    (hb : s.dispatchBay i o ⟨i, g⟩ = t) (ht : t.slot i = ⟨g, some q⟩) :
    s.dispatch x i =
      (t.setSlot i ⟨g, some { q with state := .dispatched, stalled := false, timer := some (t.settings.progressTimeout * 1000) }⟩).setCrane x
        { t.crane x with active := some ⟨i, g⟩, waiting := false } := by
  simp [State.dispatch, h, State.handleAt, hb, State.markDispatched, State.startTimer, State.setOrder, ht, State.progressMs]

/-- Settles O23: the route as the segments between two of its points, selection by induction on the candidates, and dispatch by
what it does at the bays. -/
theorem selectionAndDispatch : Obligations.SelectionAndDispatch := by
  refine ⟨fun s x o here visits calls onRoute hhere hvis hcalls hroute => ?_, fun s x level base hage => ?_,
    fun s x i g o h => ⟨fun st bay hk hd hbay => ?_, fun st bay b hk hsrc hbin => ?_, fun hk => ?_⟩⟩
  · have hsegment : here = s.currentSegment x := hhere.trans (currentSegment_eq s x).symm
    have hv : ∀ n, n ∈ o.cells ↔ visits n := fun n => by rw [hvis, mem_cells]
    have hc : ∀ st, o.station = some st ↔ calls st := fun st => by rw [hcalls, station_iff]
    have hr : ∀ k, (s.routeLo x o ≤ k ∧ k ≤ s.routeHi x o) ↔ onRoute k := fun k => by
      rw [route_iff, hroute]
      simp only [mem_routePoints, hv, hc, hsegment]
    have hreach : s.reachable x o = true ↔
        (∀ n, visits n → (s.zone (zoneOfCell n)).state = .inService) ∧
          (∀ k, onRoute k → (s.seg k).holder ≠ some (otherCrane x)) ∧
          (∀ k, k < 3 → (s.shutter k).state ≠ .open → ¬(onRoute (10 * k + 10) ∧ onRoute (10 * k + 11))) ∧
          (s.sched.wing = .normal ∨ o.kind = .verify ∧ ∀ n, visits n → zoneOfCell n ∈ s.sched.verifySet) := by
      simp only [reachable_iff, routeFree_iff, wingAllows_iff, hr, hv, and_assoc]
    refine ⟨hreach, fun i => ?_⟩
    rw [mem_eligibleOrders, eligible_iff]
    simp only [hc, and_assoc]
  · have hagec : AgesWithin base (s.candidates x) := fun e he => hage e ((mem_candidates s x e).mp he).1
    refine ⟨fun hne => choose_ne_none (candidates_ne_nil hne) level, fun i raised hch => ?_, fun i h hm hauth hlev hold hcap => ?_⟩
    · obtain ⟨o, ho, hlev, hraised, hall⟩ := choose_sound hagec hch
      obtain ⟨hoe, hoa⟩ := (mem_candidates s x _).mp ho
      refine ⟨o, hoe, hoa, hlev, fun j hj => ?_, fun e he ha => hall e ((mem_candidates s x e).mpr ⟨he, fun q hq => ha ▸ hoa q hq⟩)⟩
      obtain ⟨q, hq, hqo, hqb, hql⟩ := hraised j hj
      obtain ⟨hqe, hqa⟩ := (mem_candidates s x _).mp hq
      exact ⟨q, hqe, le_antisymm (hqa _ hoe) (hoa _ hqe), hqo, hqb, hql⟩
    · have hcand : ∀ e ∈ s.candidates x, e ∈ s.eligibleOrders x ∧ e.2.authority = h.authority := fun e he => by
        obtain ⟨hee, hea⟩ := (mem_candidates s x e).mp he
        exact ⟨hee, le_antisymm (hea _ hm) (hauth e hee)⟩
      refine choose_level hagec (fun e he hei => ?_) ((mem_candidates s x _).mpr ⟨hm, hauth⟩) hlev
        (fun e he => hold e (hcand e he).1 (hcand e he).2) (fun e he => hcap e (hcand e he).1 (hcand e he).2)
      obtain ⟨j, q⟩ := e
      have hq := ((mem_eligibleOrders s x j q).mp (hcand _ he).1).1.2
      have hh := ((mem_eligibleOrders s x i h).mp hm).1.2
      subst hei
      exact Option.some.inj (hq.symm.trans hh)
  · have hst : o.station = some st := (station_iff o st).mpr (.inl ⟨hk, hd⟩)
    have hbay' : s.emptyBayOf st = some bay := by
      rcases hbay with ⟨h0, rfl⟩ | ⟨h0, h1, rfl⟩
      · exact emptyBayOf_zero h0
      · exact emptyBayOf_one h0 h1
    have hdb : s.dispatchBay i o ⟨i, g⟩ = (s.bayTo st bay (.inbound ⟨i, g⟩)).setOrder i (some { o with destBay := some bay }) := by
      simp [State.dispatchBay, hk, hst, hbay']
    rw [dispatch_eq h hdb (q := { o with destBay := some bay }) (by simp [State.setOrder, State.bayTo, h])]
    simp [State.setOrder, State.bayTo, h]
  · have hdb : s.dispatchBay i o ⟨i, g⟩ = s.bayTo st bay (.outbound b) := by
      rcases hk with hk | hk <;> simp [State.dispatchBay, hk, hsrc, hbin]
    rw [dispatch_eq h hdb (q := o) (by simp [State.bayTo, h])]
    simp [State.bayTo]
  · have hdb : s.dispatchBay i o ⟨i, g⟩ = s := by
      rcases hk with hk | ⟨hk, n, hn⟩ <;> simp [State.dispatchBay, *]
    rw [dispatch_eq h hdb h]

end Sys2Proof.Machine
end
/-! # NEXT and the reports of a crane -/
section
namespace Sys2Proof.Machine

theorem okLevel_iff (n : Nat) : okLevel n = true ↔ n < 12 := by simp [okLevel]

/-- A crane's own requests are taken on the crane ports (R191). -/
theorem crane_taken {p : Port} {c : Crane} (hp : craneOfPort p = some c) {k : Kind}
    (h : k ∈ [.next, .load, .done, .unable, .tag, .rsv, .rel]) : portRefusal p k = none := by
  refine portRefusal_eq_none ?_
  simp only [List.mem_cons, List.not_mem_nil, or_false] at h
  rcases h with rfl | rfl | rfl | rfl | rfl | rfl | rfl <;> cases p <;> simp [craneOfPort] at hp <;> decide

theorem onCrane_eq {p : Port} {c : Crane} (hp : craneOfPort p = some c) (s : State) (f : Crane → State × Reply) :
    onCrane p s f = f c := by simp [onCrane, hp]

/-! ## NEXT (R65 to R75) -/

theorem ownNext_eq {p : Port} {c : Crane} (hp : craneOfPort p = some c) {level : Nat} (hl : level < 12) (s : State) :
    ownNext p level s = s.next c level := by simp [ownNext, (okLevel_iff level).mpr hl, onCrane_eq hp]

/-- NEXT with an active order repeats it (R66). -/
theorem next_active {s e : State} {c : Crane} {level : Nat} (he : (s.setLevel c level).wantedBays c = e) {h : Handle}
    (ha : (e.crane c).active = some h) :
    s.next c level = (e.setCrane c { e.crane c with waiting := false }, e.orderFormAt true h.slot) := by
  simp only [State.next, he, ha]

theorem next_orphan {s e : State} {c : Crane} {level : Nat} (he : (s.setLevel c level).wantedBays c = e)
    (ha : (e.crane c).active = none) (ho : (e.crane c).orphan = true) : s.next c level = e.nextOrphan c := by
  simp only [State.next, he, ha, ho, if_true]

theorem next_select {s e : State} {c : Crane} {level : Nat} (he : (s.setLevel c level).wantedBays c = e)
    (ha : (e.crane c).active = none) (ho : (e.crane c).orphan = false) : s.next c level = e.nextSelect c level := by
  simp only [State.next, he, ha, ho, Bool.false_eq_true, if_false]

theorem orderFormAt_live {s : State} {i g : Nat} {o : Order} (repeated : Bool) (h : s.slot i = ⟨g, some o⟩) :
    s.orderFormAt repeated i = orderForm repeated ⟨i, g⟩ o := by
  simp [State.orderFormAt, h, State.handleAt]

/-- Filling a slot with the stow of an orphan bin (R51, R62). -/
theorem fillSlot_orphan (s : State) (i : Nat) (x : Crane) (b n : Nat) :
    s.fillSlot i (s.orphanOrder x b n) =
      ((((s.setSlot i ⟨(s.newHandle i).gen, some { s.orphanOrder x b n with seq := s.counter }⟩).setCounter
        (s.counter + 1)).setBin b { s.bin b with order := some (s.newHandle i) }).setCell n
          ⟨.reserved (s.newHandle i), (s.cell n).stamp, 0⟩).setCrane x
            { s.crane x with active := some (s.newHandle i), orphan := false } := by
  simp [State.fillSlot, State.orphanOrder, newOrder, State.bindBin, State.reserveFor, OrderKind.stows, Order.destCell,
    Place.cellOf, State.clearWanted, State.takeOrphan, State.reserveCell, State.cellTo, Cell.toState]

/-- The stow of an orphan bin is created where R49 does not refuse it and the toward-home scan delivers a cell (R62). -/
theorem createOrphan_some {s : State} {x : Crane} {b i n : Nat} (hc : (s.crane x).carried = some b)
    (hb : (s.bin b).order = none) (hw : s.sched.wing = .normal) (hi : s.freeSlot = some i) (hn : s.homeScan x = some n) :
    s.createOrphan x = some (s.fillSlot i (s.orphanOrder x b n), s.newHandle i) := by
  have href : s.creationRefusal (some b) .stow = none :=
    creationRefusal_none .stow (fun b' e => by cases e; exact hb) (.inl hw) hi
  simp only [State.createOrphan, hc, href, hn, create_eq hi]

theorem creationRefusal_isSome {s : State} (bin : Option Nat) {k : OrderKind} (h : s.sched.wing = .held ∧ k ≠ .verify ∨ s.freeSlot = none) :
    ∃ r, s.creationRefusal bin k = some r := by
  unfold State.creationRefusal
  split
  · exact ⟨_, rfl⟩
  · split
    · exact ⟨_, rfl⟩
    · next hno =>
      rcases h with h | h
      · exact absurd h hno
      · exact ⟨.tableFull, by simp [h]⟩

theorem createOrphan_none {s : State} {x : Crane} (h : s.sched.wing = .held ∨ s.freeSlot = none ∨ s.homeScan x = none) :
    s.createOrphan x = none := by
  unfold State.createOrphan
  split
  · rfl
  · next b _ =>
    split
    · rfl
    · next href =>
      rcases h with h | h | h
      · obtain ⟨r, hr⟩ := creationRefusal_isSome (s := s) (some b) (k := .stow) (.inl ⟨h, by decide⟩)
        simp [hr] at href
      · obtain ⟨r, hr⟩ := creationRefusal_isSome (s := s) (some b) (k := .stow) (.inr h)
        simp [hr] at href
      · rw [h]

/-- What R72 tests of a VERIFY depends on its cell alone. -/
theorem reachable_verify {s : State} {x : Crane} {o q : Order} (ho : o.kind = .verify) (hq : q.kind = .verify)
    (h : o.source = q.source) : s.reachable x o = s.reachable x q := by
  have hcells : o.cells = q.cells := by simp [Order.cells, ho, hq, h]
  have hstation : o.station = q.station := by simp [Order.station, ho, hq]
  simp [State.reachable, State.routeFree, State.routeLo, State.routeHi, State.routePoints, State.wingAllows, hcells, hstation,
    ho, hq]

theorem createVerify_full {s : State} (x : Crane) (k a : Nat) (h : s.freeSlot = none) : s.createVerify x k a = none := by
  obtain ⟨r, hr⟩ := creationRefusal_isSome (s := s) none (k := .verify) (.inr h)
  simp [State.createVerify, hr]

/-- Filling a slot with a VERIFY touches no record but the slot (R51). -/
theorem fillSlot_verify (s : State) (i : Nat) (x : Crane) (n a : Nat) :
    s.fillSlot i (verifyOrder x n a) =
      (s.setSlot i ⟨(s.newHandle i).gen, some { verifyOrder x n a with seq := s.counter }⟩).setCounter (s.counter + 1) := by
  simp [State.fillSlot, verifyOrder, newOrder, State.bindBin, State.reserveFor, OrderKind.stows, State.clearWanted,
    State.takeOrphan]

theorem createVerify_eq {s : State} (x : Crane) (k a : Nat) {i : Nat} (h : s.freeSlot = some i) :
    s.createVerify x k a =
      some ((((s.setSlot i ⟨(s.newHandle i).gen, some { verifyOrder x (s.shareFirst x + k) a with seq := s.counter }⟩).setCounter
        (s.counter + 1)).moveCursor x k).spendCredit x, s.newHandle i) := by
  have href : s.creationRefusal none .verify = none :=
    creationRefusal_none .verify (fun b' e => by cases e) (.inr rfl) h
  simp [State.createVerify, href, create_eq h, fillSlot_verify, State.shareCell]

/-- The scheduler's steps touch nothing but the scheduler. -/
theorem advanceEpoch_frame (s : State) : ∃ v, s.advanceEpoch = { s with sched := v } := by
  unfold State.advanceEpoch
  split <;> exact ⟨_, rfl⟩

theorem setSchedCrane_frame (s : State) (x : Crane) (r : SchedCrane) : ∃ v, s.setSchedCrane x r = { s with sched := v } := by
  cases x <;> exact ⟨_, rfl⟩

theorem moveCursor_frame (s : State) (x : Crane) (k : Nat) : ∃ v, s.moveCursor x k = { s with sched := v } := by
  obtain ⟨v, hv⟩ := setSchedCrane_frame s x { s.schedCrane x with cursor := s.cursorAfter x k, wrap := (s.schedCrane x).wrap || decide (s.cursorAfter x k ≤ (s.schedCrane x).cursor) }
  obtain ⟨w, hw⟩ := advanceEpoch_frame { s with sched := v }
  exact ⟨w, by simp only [State.moveCursor, hv, hw]⟩

theorem verifySteps_frame (s : State) (x : Crane) (k : Nat) : ∃ v, (s.moveCursor x k).spendCredit x = { s with sched := v } := by
  obtain ⟨v, hv⟩ := moveCursor_frame s x k
  rw [hv]
  exact setSchedCrane_frame ..

theorem advanceEpoch_setSlot (s : State) (i : Nat) (r : Slot) : (s.setSlot i r).advanceEpoch = s.advanceEpoch.setSlot i r := by
  by_cases h : (s.sched.a.wrap && s.sched.b.wrap) = true
  · simp only [State.advanceEpoch, State.setSlot_sched, h, if_true]
    rfl
  · simp only [State.advanceEpoch, State.setSlot_sched, h]
    rfl

theorem moveCursor_setSlot (s : State) (x : Crane) (k i : Nat) (r : Slot) :
    (s.setSlot i r).moveCursor x k = (s.moveCursor x k).setSlot i r := by
  have hmove : ∀ u : State, u.moveCursor x k =
      (u.setSchedCrane x { u.schedCrane x with
        cursor := u.cursorAfter x k
        wrap := (u.schedCrane x).wrap || decide (u.cursorAfter x k ≤ (u.schedCrane x).cursor) }).advanceEpoch := fun u => rfl
  rw [hmove, hmove, ← advanceEpoch_setSlot]
  cases x <;> rfl

/-- The scheduler's steps do not read the order slots. -/
theorem verifySteps_setSlot (s : State) (x : Crane) (k i : Nat) (r : Slot) :
    ((s.setSlot i r).moveCursor x k).spendCredit x = ((s.moveCursor x k).spendCredit x).setSlot i r := by
  rw [moveCursor_setSlot]
  cases x <;> rfl

theorem verifyPosition_none {s : State} {x : Crane}
    (h : (s.schedCrane x).credits = 0 ∨ s.cursorSearch x = none ∨
      ∃ k, s.cursorSearch x = some k ∧ s.reachable x (verifyOrder x (s.shareCell x k) 3) = false) :
    s.verifyPosition x = none := by
  unfold State.verifyPosition
  split
  · rfl
  · next hcr =>
    rcases h with h | h | ⟨k, h, hr⟩
    · exact absurd h hcr
    · rw [h]
    · simp [h, hr]

theorem nextVerify_none {s : State} {x : Crane} (h : s.verifyPosition x = none ∨ s.freeSlot = none) :
    s.nextVerify x = s.noneForm x := by
  unfold State.nextVerify
  rcases h with h | h
  · rw [h]
  · split
    · rfl
    · simp [createVerify_full x _ 3 h]

theorem dispatch_verify {s : State} {x : Crane} {i g : Nat} {o : Order} (h : s.slot i = ⟨g, some o⟩) (hk : o.kind = .verify) :
    s.dispatch x i =
      (s.setSlot i ⟨g, some { o with state := .dispatched, stalled := false, timer := some (s.settings.progressTimeout * 1000) }⟩).setCrane x
        { s.crane x with active := some ⟨i, g⟩, waiting := false } :=
  dispatch_eq h (by simp [State.dispatchBay, hk]) h

/-- A VERIFY just created is dispatched at once (R72, R74). -/
theorem nextVerify_eq {s : State} {x : Crane} {k i g : Nat} (h : s.verifyPosition x = some k) (hi : s.freeSlot = some i)
    (hnew : s.newHandle i = ⟨i, g⟩) :
    s.nextVerify x =
      (((((s.setSlot i
        ⟨g, some { verifyOrder x (s.shareFirst x + k) 3 with
          seq := s.counter, state := .dispatched, timer := some (s.settings.progressTimeout * 1000) }⟩).setCounter
            (s.counter + 1)).moveCursor x k).spendCredit x).setCrane x
              { s.crane x with active := some ⟨i, g⟩, waiting := false },
        orderForm false ⟨i, g⟩ { verifyOrder x (s.shareFirst x + k) 3 with
          seq := s.counter, state := .dispatched, timer := some (s.settings.progressTimeout * 1000) }) := by
  have hsteps : ∀ r, ((((s.setSlot i r).setCounter (s.counter + 1)).moveCursor x k).spendCredit x) =
      (((s.setCounter (s.counter + 1)).moveCursor x k).spendCredit x).setSlot i r := fun r =>
    verifySteps_setSlot (s.setCounter (s.counter + 1)) x k i r
  obtain ⟨v, hv⟩ := verifySteps_frame (s.setCounter (s.counter + 1)) x k
  have hslot : ∀ r, ((((s.setSlot i r).setCounter (s.counter + 1)).moveCursor x k).spendCredit x).slot i = r := fun r => by
    rw [hsteps, State.setSlot_slot_same]
  have hcrane : (((s.setCounter (s.counter + 1)).moveCursor x k).spendCredit x).crane x = s.crane x := by
    rw [hv]
    cases x <;> rfl
  have hsettings : (((s.setCounter (s.counter + 1)).moveCursor x k).spendCredit x).settings = s.settings := by rw [hv]; rfl
  simp only [State.nextVerify, h, createVerify_eq x k 3 hi, hnew]
  rw [dispatch_verify (hslot ⟨g, some { verifyOrder x (s.shareFirst x + k) 3 with seq := s.counter }⟩) rfl]
  simp only [hsteps, State.setSlot_setSlot, State.setSlot_crane, State.setSlot_settings, hcrane, hsettings]
  rw [orderFormAt_live (g := g) false (by rw [State.setCrane_slot, State.setSlot_slot_same])]
  rfl

/-- Settles O24: NEXT by the state after its first two steps. -/
theorem nextGivesWorkOrNone : Obligations.NextGivesWorkOrNone := by
  rintro s p c level v d e st hs hp hl rfl rfl rfl he
  have hw : (s.setLevel c level).wantedBays c = e := he.symm
  clear he
  have htaken := crane_taken hp (k := .next) (by decide)
  have hown : ∀ {u f}, s.next c level = (u, .ack f) → exec (.nextWork p level) s = .next (acked s p .next f u) := fun h =>
    serve_acked hs htaken ((ownNext_eq hp hl s).trans h)
  refine ⟨fun i g o ha hsl => hown ?_, fun ha => ⟨fun i raised g o u ho hch hu hsl => hown ?_, fun b i n g ho hcar hbin hwing hi hn hg => hown ?_,
    fun h => hown ?_, fun k n i g o ho hel hcr hk hn hi hg hord hreach => hown ?_⟩⟩
  · rw [next_active hw ha, orderFormAt_live true hsl]
    rfl
  · rw [next_select hw ha ho, State.nextSelect, hch]
    dsimp only
    rw [← hu, orderFormAt_live false hsl]
    rfl
  · rw [next_orphan hw ha ho, State.nextOrphan, createOrphan_some hcar hbin hwing hi hn, fillSlot_orphan]
    have hnew : e.newHandle i = ⟨i, g⟩ := by rw [hg]; rfl
    dsimp only
    rw [orderFormAt_live (g := g) (o := { e.orphanOrder c b n with seq := e.counter }) false (by simp [hnew])]
    simp only [hnew, State.setCrane_setCrane, State.setCrane_crane_same]
    rfl
  · have hnone : s.next c level = e.noneForm c := by
      rcases h with ⟨ho, h⟩ | ⟨ho, hel, h⟩
      · rw [next_orphan hw ha ho, State.nextOrphan, createOrphan_none h]
      · rw [next_select hw ha ho, State.nextSelect, candidates_nil hel, choose_nil]
        dsimp only
        rcases h with h | h | h | ⟨k, o, h, hkind, hsrc, hreach⟩
        · exact nextVerify_none (.inl (verifyPosition_none (.inl h)))
        · exact nextVerify_none (.inl (verifyPosition_none (.inr (.inl h))))
        · exact nextVerify_none (.inr h)
        · refine nextVerify_none (.inl (verifyPosition_none (.inr (.inr ⟨k, h, ?_⟩))))
          rw [← hreach]
          exact reachable_verify rfl hkind hsrc.symm
    rw [hnone]
    rfl
  · have hver : e.verifyPosition c = some k := by
      rw [State.verifyPosition, if_neg hcr, hk]
      dsimp only
      rw [if_pos]
      rw [← hreach]
      exact reachable_verify rfl (by rw [hord]) (by rw [hord, hn]; rfl)
    rw [next_select hw ha ho, State.nextSelect, candidates_nil hel, choose_nil]
    dsimp only
    have hnew : e.newHandle i = ⟨i, g⟩ := by rw [hg]; rfl
    subst hord hn
    rw [nextVerify_eq hver hi hnew]
    rfl

end Sys2Proof.Machine
end
/-! # LOAD and DONE -/
section
namespace Sys2Proof.Machine

/-! ## A report names the crane's active order (R77) -/

theorem activeOrder_eq {s : State} {c : Crane} {i g : Nat} {o : Order} (ha : (s.crane c).active = some ⟨i, g⟩)
    (h : s.slot i = ⟨g, some o⟩) : s.activeOrder c ⟨i, g⟩ = some o := by
  rw [State.activeOrder, if_pos ha, orderOf_live h]

theorem activeOrder_none {s : State} {c : Crane} {h : Handle} (hn : (s.crane c).active ≠ some h ∨ s.orderOf h = none) :
    s.activeOrder c h = none := by
  unfold State.activeOrder
  rcases hn with hn | hn
  · rw [if_neg hn]
  · rw [hn, ite_self]

theorem ownLoad_eq {p : Port} {c : Crane} (hp : craneOfPort p = some c) {i : Nat} (g : Nat) (hi : i < 64) (s : State) :
    ownLoad p (i, g) s = s.load c ⟨i, g⟩ := by simp [ownLoad, (okSlot_iff i).mpr hi, onCrane_eq hp]

theorem ownDone_eq {p : Port} {c : Crane} (hp : craneOfPort p = some c) {i : Nat} (g : Nat) (hi : i < 64) {cell : Option Nat}
    (hc : ∀ n, cell = some n → n < 3840) (s : State) :
    ownDone p ⟨i, g, 0, cell⟩ s = s.doneReport c ⟨i, g⟩ cell := by
  simp [ownDone, (okSlot_iff i).mpr hi, okOptCell_of hc, onCrane_eq hp]

theorem ownUnable_eq {p : Port} {c : Crane} (hp : craneOfPort p = some c) {i : Nat} (g : Nat) (hi : i < 64) {n : Nat}
    {r : UnableReason} (hr : unableReasonOf n = some r) {cell : Option Nat} (hc : ∀ n, cell = some n → n < 3840) (s : State) :
    ownUnable p ⟨i, g, n, cell⟩ s = s.unable c ⟨i, g⟩ r cell := by
  simp [ownUnable, hr, (okSlot_iff i).mpr hi, okOptCell_of hc, onCrane_eq hp]

theorem ownTag_eq {p : Port} {c : Crane} (hp : craneOfPort p = some c) {i : Nat} (g : Nat) (hi : i < 64) {r : TagResult}
    (hr : okResult r = true) (s : State) : ownTag p ⟨i, g, r⟩ s = s.tag c ⟨i, g⟩ r := by
  simp [ownTag, (okSlot_iff i).mpr hi, hr, onCrane_eq hp]

theorem okResult_of {r : TagResult} (h : ∀ b, r = .tag b → b < 4096) : okResult r = true := by
  cases r with
  | tag b => exact (okBin_iff b).mpr (h b rfl)
  | noBin => rfl
  | unreadable => rfl

theorem unableReasonOf_some {n : Nat} (h : n < 5) : ∃ r, unableReasonOf n = some r := by
  interval_cases n <;> exact ⟨_, rfl⟩

/-- Settles O25: each report finds no active order. -/
theorem reportsNameTheActiveOrder : Obligations.ReportsNameTheActiveOrder := by
  intro s p c i g hs hp hi hno
  have hact := activeOrder_none hno
  refine ⟨?_, fun reason cell hr hc => ?_, fun r hr => ?_, fun cell hc => ?_⟩
  · refine serve_refused hs (crane_taken hp (by decide)) ?_
    rw [ownLoad_eq hp g hi, State.load, withActive, hact]
    rfl
  · obtain ⟨r, hr⟩ := unableReasonOf_some hr
    refine serve_refused hs (crane_taken hp (by decide)) ?_
    rw [ownUnable_eq hp g hi hr hc, State.unable, withActive, hact]
    rfl
  · refine serve_refused hs (crane_taken hp (by decide)) ?_
    rw [ownTag_eq hp g hi (okResult_of hr), State.tag, hact]
    rfl
  · have hdone : ownDone p ⟨i, g, 0, cell⟩ s =
        if (s.crane c).lastCompleted = some ⟨i, g⟩ then (s, .ack [.indication true]) else refuse s .orderState := by
      rw [ownDone_eq hp g hi hc, State.doneReport, hact]
    split
    · next hl =>
      rw [if_pos hl] at hdone
      exact serve_acked hs (crane_taken hp (by decide)) hdone
    · next hl =>
      rw [if_neg hl] at hdone
      exact serve_refused hs (crane_taken hp (by decide)) hdone

/-! ## LOAD (R78, R79) -/

/-- The moves of R30 leave the order slots, the settings and the zones. -/
theorem loadFromCell_frame (s : State) (c : Crane) (n b : Nat) :
    ∃ bins cells a d, s.loadFromCell c n b = { s with bins := bins, cells := cells, craneA := a, craneB := d } := by
  cases c <;> exact ⟨_, _, _, _, rfl⟩

theorem loadFromBay_frame (s : State) (c : Crane) (st : Station) (bay b : Nat) :
    ∃ bins bays a d, s.loadFromBay c st bay b = { s with bins := bins, bays := bays, craneA := a, craneB := d } := by
  cases c <;> exact ⟨_, _, _, _, rfl⟩

theorem deliverToBay_frame (s : State) (c : Crane) (st : Station) (bay b : Nat) (keep : Bool) :
    ∃ bins bays a d, s.deliverToBay c st bay b keep = { s with bins := bins, bays := bays, craneA := a, craneB := d } := by
  cases c <;> exact ⟨_, _, _, _, rfl⟩

theorem deliverToCell_frame (s : State) (c : Crane) (n b : Nat) :
    ∃ bins cells a d, s.deliverToCell c n b = { s with bins := bins, cells := cells, craneA := a, craneB := d } := by
  cases c <;> exact ⟨_, _, _, _, rfl⟩

theorem load_loaded {s : State} {c : Crane} {h : Handle} {o : Order} (ha : s.activeOrder c h = some o) (hs : o.state = .loaded) :
    s.load c h = (s, s.loadReply h.slot) := by simp [State.load, withActive, ha, hs]

theorem load_dispatched {s : State} {c : Crane} {h : Handle} {o : Order} {b : Nat} (ha : s.activeOrder c h = some o)
    (hs : o.state = .dispatched) (hb : o.bin = some b) : s.load c h = s.loadFrom c h.slot o b := by
  simp [State.load, withActive, ha, hs, hb]

theorem load_verify {s : State} {c : Crane} {h : Handle} {o : Order} (ha : s.activeOrder c h = some o)
    (hs : o.state = .dispatched) (hb : o.bin = none) : s.load c h = refuse s .orderState := by
  simp [State.load, withActive, ha, hs, hb]

theorem loadReply_live {s : State} {i g : Nat} {o : Order} (h : s.slot i = ⟨g, some o⟩) :
    s.loadReply i = .ack ([.indication false, .named 2] ++ optField .place o.dest) := by
  simp [State.loadReply, h, OrderState.code]

/-- LOAD's two sources (R78): the move made, and what it leaves. -/
theorem loadFrom_moved {s m : State} {c : Crane} {i b : Nat} {o : Order}
    (h : (∃ n, o.source = .cell n ∧ (s.cell n).state = .occupied b ∧ (s.bin b).place = .stored n ∧ m = s.loadFromCell c n b) ∨
      ∃ st bay, o.source = .bay st bay ∧ (s.bay st bay).state = .outbound b ∧ m = s.loadFromBay c st bay b) :
    s.loadFrom c i o b = m.finishLoad i ∧ m.slot i = s.slot i ∧ m.settings = s.settings ∧ ∀ z, m.zone z = s.zone z := by
  rcases h with ⟨n, hsrc, hcell, hbin, rfl⟩ | ⟨st, bay, hsrc, hbay, rfl⟩
  · obtain ⟨x, y, a, d, hf⟩ := loadFromCell_frame s c n b
    refine ⟨by simp [State.loadFrom, hsrc, hcell, hbin], ?_⟩
    rw [hf]
    exact ⟨rfl, rfl, fun _ => rfl⟩
  · obtain ⟨x, y, a, d, hf⟩ := loadFromBay_frame s c st bay b
    refine ⟨by simp [State.loadFrom, hsrc, hbay], ?_⟩
    rw [hf]
    exact ⟨rfl, rfl, fun _ => rfl⟩

theorem markLoaded_eq {s : State} {i g : Nat} {o : Order} (h : s.slot i = ⟨g, some o⟩) :
    s.markLoaded i =
      s.setSlot i ⟨g, some { o with state := .loaded, stalled := false, timer := some (s.settings.progressTimeout * 1000) }⟩ := by
  simp [State.markLoaded, h, State.setOrder, State.startTimer, State.progressMs]

theorem loadRedestine_stays {s : State} {i g : Nat} {o : Order} (h : s.slot i = ⟨g, some o⟩)
    (hk : o.kind = .fetch ∨ o.dest = none ∨ ∃ n, o.dest = some (.cell n) ∧ (s.zone (zoneOfCell n)).state = .inService) :
    s.loadRedestine i = s := by
  simp only [State.loadRedestine, h]
  refine if_neg ?_
  rcases hk with hk | hk | ⟨n, hk, hz⟩
  · simp [hk, OrderKind.stows]
  · simp [Order.destCell, hk]
  · simp [Order.destCell, hk, Place.cellOf, State.zoneOk, State.inService, hz]

theorem loadRedestine_moves {s : State} {i g n : Nat} {o : Order} (h : s.slot i = ⟨g, some o⟩)
    (hk : o.kind = .stow ∨ o.kind = .move) (hd : o.dest = some (.cell n)) (hz : (s.zone (zoneOfCell n)).state ≠ .inService) :
    s.loadRedestine i = s.redestine i := by
  simp only [State.loadRedestine, h]
  refine if_pos ?_
  simp [(stows_iff _).mpr hk, (destCell_iff o n).mpr hd, State.zoneOk, State.inService, hz]

/-- Settles O26: the move, the order's mark, and the re-destination of R79. -/
theorem loadTakesTheBin : Obligations.LoadTakesTheBin := by
  refine ⟨fun s p c i g o hs hp hi ha hsl => ⟨fun hload => ?_, fun b m u hst hb hsrc hu => ?_⟩,
    fun s p c i g o hs hp hi ha hsl hst => ⟨fun b n hb hsrc hno => ?_, fun b st bay hb hsrc hno => ?_, fun hb => ?_⟩⟩
  all_goals have hact := activeOrder_eq ha hsl
  · refine serve_acked hs (crane_taken hp (by decide)) ?_
    rw [ownLoad_eq hp g hi, load_loaded hact hload, loadReply_live hsl]
  · obtain ⟨hfrom, hmslot, hmset, hmzone⟩ := loadFrom_moved (i := i) hsrc
    have hown : ownLoad p (i, g) s = ((u.loadRedestine i), (u.loadRedestine i).loadReply i) := by
      rw [ownLoad_eq hp g hi, load_dispatched hact hst hb, hfrom, State.finishLoad, markLoaded_eq (hmslot.trans hsl), hmset, hu]
    have huslot : u.slot i = ⟨g, some { o with state := .loaded, stalled := false, timer := some (s.settings.progressTimeout * 1000) }⟩ := by
      rw [hu, State.setSlot_slot_same]
    have huzone : ∀ z, u.zone z = s.zone z := fun z => by rw [hu, State.setSlot_zone, hmzone]
    refine ⟨fun hk => ?_, fun n hk hd hz => ?_⟩ <;> refine serve_acked hs (crane_taken hp (by decide)) (hown.trans ?_)
    · rw [loadRedestine_stays huslot (by simpa only [huzone] using hk), loadReply_live huslot]
    · rw [loadRedestine_moves huslot hk hd (by rw [huzone]; exact hz)]
      rfl
  all_goals refine serve_refused hs (crane_taken hp (by decide)) ?_
  · rw [ownLoad_eq hp g hi, load_dispatched hact hst hb]
    simp only [State.loadFrom, hsrc]
    exact if_neg (by rw [not_and_or]; exact hno)
  · rw [ownLoad_eq hp g hi, load_dispatched hact hst hb]
    simp only [State.loadFrom, hsrc]
    exact if_neg hno
  · rw [ownLoad_eq hp g hi, load_verify hact hst hb]
    rfl

/-! ## DONE (R80, R81) -/

theorem keep_eq (s : State) (o : Order) (b : Nat) :
    (o.purpose == .ret || !(s.bin b).hasPending) = decide (o.purpose = .ret ∨ Comp.pendingPick ∉ (s.bin b).comps) := by
  cases o.purpose <;> simp [Bin.hasPending, List.any_beq']

theorem doneReport_fetch {s : State} {c : Crane} {h : Handle} {o : Order} {b : Nat} (ha : s.activeOrder c h = some o)
    (hs : o.state = .loaded) (hk : o.kind = .fetch) (hb : o.bin = some b) : s.doneReport c h none = s.doneFetch c h o b := by
  simp [State.doneReport, ha, hs, hk, hb]

theorem doneReport_stow {s : State} {c : Crane} {h : Handle} {o : Order} {b : Nat} (ha : s.activeOrder c h = some o)
    (hs : o.state = .loaded) (hk : o.kind = .stow ∨ o.kind = .move) (hb : o.bin = some b) (cell : Option Nat) :
    s.doneReport c h cell = s.doneStow c h o b cell := by
  rcases hk with hk | hk <;> simp [State.doneReport, ha, hs, hk, hb]

/-- DONE where the order is not one that the report can complete (R80, R81). -/
theorem doneReport_refused {s : State} {c : Crane} {h : Handle} {o : Order} {cell : Option Nat} (ha : s.activeOrder c h = some o)
    (hno : o.state ≠ .loaded ∨ o.kind = .verify ∨ (o.kind = .fetch ∧ cell ≠ none) ∨
      ((o.kind = .stow ∨ o.kind = .move) ∧ ∀ n, o.dest = some (.cell n) → cell ≠ some n)) :
    s.doneReport c h cell = refuse s .orderState := by
  have hstow : ∀ b, (∀ n, o.dest = some (.cell n) → cell ≠ some n) → s.doneStow c h o b cell = refuse s .orderState := by
    intro b hd
    unfold State.doneStow
    split
    · rfl
    · next n hn => rw [if_pos (hd n ((destCell_iff o n).mp hn))]
  simp only [State.doneReport, ha]
  split
  · next hst hk hb =>
    rw [if_pos]
    simp only [hst, hk, ne_eq, not_true, reduceCtorEq, false_or, true_and, or_self, false_and, or_false] at hno
    exact Option.isSome_iff_ne_none.mpr hno
  · next hst hk hb => exact hstow _ (by simpa [hst, hk] using hno)
  · next hst hk hb => exact hstow _ (by simpa [hst, hk] using hno)
  · rfl

/-- Settles O27: the delivery and the end of the order; the refusals by the report's four cases. -/
theorem doneDeliversTheBin : Obligations.DoneDeliversTheBin := by
  refine ⟨fun s p c i g o b hs hp hi ha hsl hst hb => ⟨fun st bay hk hd hdb hbay => ?_, fun n hk hd hn hcell => ?_⟩,
    fun s p c i g o cell hs hp hi ha hsl hcell => ⟨fun hno => ?_, fun n b hst hk hb hd hc hres => ?_⟩⟩
  all_goals have hact := activeOrder_eq ha hsl
  · refine serve_acked hs (crane_taken hp (by decide)) ?_
    rw [ownDone_eq hp g hi (by simp), doneReport_fetch hact hst hk hb]
    simp only [State.doneFetch, State.deliveryBay, hd, hdb, hbay, if_true, keep_eq]
  · refine serve_acked hs (crane_taken hp (by decide)) ?_
    rw [ownDone_eq hp g hi (by simpa using hn), doneReport_stow hact hst hk hb]
    simp [State.doneStow, (destCell_iff o n).mpr hd, hcell]
  · refine serve_refused hs (crane_taken hp (by decide)) ?_
    rw [ownDone_eq hp g hi hcell, doneReport_refused hact hno]
    rfl
  · refine serve_refused hs (crane_taken hp (by decide)) ?_
    rw [ownDone_eq hp g hi hcell, doneReport_stow hact hst hk hb]
    simp [State.doneStow, (destCell_iff o n).mpr hd, hc, hres, refuse]

end Sys2Proof.Machine
end
/-! # UNABLE -/
section
namespace Sys2Proof.Machine

theorem unable_dispatched {s : State} {c : Crane} {h : Handle} {o : Order} (ha : s.activeOrder c h = some o)
    (hs : o.state = .dispatched) (r : UnableReason) (cell : Option Nat) :
    s.unable c h r cell = s.unableDispatched h.slot o r cell := by simp [State.unable, withActive, ha, hs]

theorem unable_loaded {s : State} {c : Crane} {h : Handle} {o : Order} (ha : s.activeOrder c h = some o)
    (hs : o.state = .loaded) (r : UnableReason) (cell : Option Nat) :
    s.unable c h r cell = s.unableLoaded h.slot o r cell := by simp [State.unable, withActive, ha, hs]

/-- An auto-stow from a bay is still wanted when it ends before its load (R87). -/
theorem stillWanted_eq (u : State) (o : Order) :
    u.stillWanted o =
      match o.source with
      | .bay st bay => if o.kind = .stow ∧ o.purpose = .auto ∧ o.state = .dispatched then u.setStowWanted st bay true else u
      | _ => u := by
  unfold State.stillWanted
  split
  · next st b hk hp hs hsrc =>
    rw [hsrc]
    exact (if_pos ⟨hk, hp, hs⟩).symm
  · next hno =>
    split
    · next st b hsrc => exact (if_neg fun ⟨hk, hp, hs⟩ => hno st b hk hp hs hsrc).symm
    · rfl

theorem mem_blockable {o : Order} {n : Nat} :
    n ∈ o.blockable ↔
      o.state = .dispatched ∧ (o.source = .cell n ∨ o.dest = some (.cell n)) ∨ o.state = .loaded ∧ o.dest = some (.cell n) := by
  unfold Order.blockable
  cases o.state <;> simp [cellOf_iff, destCell_iff]

/-- UNABLE(BLOCKED) naming one of the order's cells blocks it and ends the order (R85). -/
theorem unableBlocked_named {s : State} {i n : Nat} {o : Order} (h : n ∈ o.blockable) :
    s.unableBlocked i o (some n) = (s.blockNamed i n).unableEnd i o .failed .failed := by
  simp [State.unableBlocked, h]

theorem unableBlocked_refused {s : State} {i n : Nat} {o : Order} (h : n ∉ o.blockable) :
    s.unableBlocked i o (some n) = refuse s .orderState := by
  simp [State.unableBlocked, h]

theorem enterBlocked_bin_order (s : State) (n b : Nat) : ((s.enterBlocked n).bin b).order = (s.bin b).order := by
  unfold State.enterBlocked
  split
  · rfl
  · rw [State.cellTo, State.setCell_bin]
    cases (s.cell n).state.bin with
    | none => rfl
    | some m =>
      rw [State.misplace, State.setBin_bin]
      split
      · next h => rw [h]
      · rfl

theorem enterBlocked_slot (s : State) (n i : Nat) : (s.enterBlocked n).slot i = s.slot i := by
  unfold State.enterBlocked
  split
  · rfl
  · rw [State.cellTo, State.setCell_slot]
    cases (s.cell n).state.bin <;> rfl

/-- No order but that of slot `i` fails with the bin where the bin has none or that one (R160). -/
theorem failMisplaced_own {s : State} {i g b : Nat} (h : (s.bin b).order = none ∨ (s.bin b).order = some ⟨i, g⟩) :
    s.failMisplaced (some i) b = s := by
  unfold State.failMisplaced State.slotOfBin
  rcases h with h | h
  · simp [h]
  · rw [h]
    dsimp only
    split
    · rfl
    · next j hj =>
      rw [if_pos]
      split at hj
      · exact hj.symm
      · cases hj

/-- Another live order of the bin that is not LOADED fails with it (R160). -/
theorem failMisplaced_other {s : State} {j g b : Nat} {o : Order} {except : Option Nat} (h : (s.bin b).order = some ⟨j, g⟩)
    (hj : some j ≠ except) (hsl : s.slot j = ⟨g, some o⟩) (ho : o.state ≠ .loaded) :
    s.failMisplaced except b = s.endOrder j .failed (some .failed) := by
  simp [State.failMisplaced, State.slotOfBin, h, orderOf_live hsl, hj, hsl, ho]

/-- The blocked cell: what it recorded and what it was reserved for (R85). -/
theorem blockNamed_eq {s u : State} {i g n : Nat}
    (h : (∀ b, (s.cell n).state = .occupied b → (s.bin b).order = none ∨ (s.bin b).order = some ⟨i, g⟩) ∧
          (∀ h, (s.cell n).state = .reserved h → h = ⟨i, g⟩) ∧ u = s.enterBlocked n ∨
        (∃ b j g' q, (s.cell n).state = .occupied b ∧ (s.bin b).order = some ⟨j, g'⟩ ∧ j ≠ i ∧ s.slot j = ⟨g', some q⟩ ∧
          q.state ≠ .loaded ∧ u = (s.enterBlocked n).endOrder j .failed (some .failed)) ∨
        ∃ j g' q, (s.cell n).state = .reserved ⟨j, g'⟩ ∧ j ≠ i ∧ s.slot j = ⟨g', some q⟩ ∧
          u = (s.enterBlocked n).redestine j) : s.blockNamed i n = u := by
  unfold State.blockNamed State.otherReserver
  rcases h with ⟨hocc, hres, rfl⟩ | ⟨b, j, g', q, hc, hb, hj, hsl, hq, rfl⟩ | ⟨j, g', q, hc, hj, hsl, rfl⟩
  · cases hc : (s.cell n).state with
    | occupied b =>
      exact failMisplaced_own (g := g) (by rw [enterBlocked_bin_order]; exact hocc b hc)
    | reserved h => simp [CellState.bin, CellState.destOf, hres h hc]
    | _ => rfl
  · simp only [hc, CellState.bin, CellState.destOf]
    exact failMisplaced_other (by rw [enterBlocked_bin_order, hb]) (by simpa using hj) (by rw [enterBlocked_slot, hsl]) hq
  · simp [hc, CellState.bin, CellState.destOf, hj, orderOf_live hsl]

/-- MECHANICAL, and BLOCKED naming no cell, fail the order in either state (R85, R86). -/
theorem unable_fails {s : State} {c : Crane} {h : Handle} {o : Order} (ha : s.activeOrder c h = some o)
    (hs : o.state = .dispatched ∨ o.state = .loaded) {r : UnableReason} {cell : Option Nat}
    (hr : r = .mechanical ∨ r = .blocked ∧ cell = none) :
    s.unable c h r cell = s.unableEnd h.slot o .failed .failed := by
  rcases hs with hs | hs
  · rw [unable_dispatched ha hs]
    rcases hr with rfl | ⟨rfl, rfl⟩ <;> rfl
  · rw [unable_loaded ha hs]
    rcases hr with rfl | ⟨rfl, rfl⟩ <;> cases hd : o.dest <;> simp [State.unableLoaded, hd, State.unableBlocked]

/-- A LOADED order with no destination fails by OCCUPIED-DEST and by BLOCKED (R84, R85). -/
theorem unable_lost {s : State} {c : Crane} {h : Handle} {o : Order} (ha : s.activeOrder c h = some o) (hs : o.state = .loaded)
    (hd : o.dest = none) {r : UnableReason} (hr : r = .occupiedDest ∨ r = .blocked) (cell : Option Nat) :
    s.unable c h r cell = s.unableEnd h.slot o .failed .failed := by
  rw [unable_loaded ha hs]
  rcases hr with rfl | rfl <;> simp [State.unableLoaded, hd]

theorem unableEmpty_refused {s : State} {i : Nat} {o : Order} {cell : Option Nat}
    (h : o.kind = .verify ∨ ∀ n, cell = some n → o.source ≠ .cell n) : s.unableEmpty i o cell = refuse s .orderState := by
  unfold State.unableEmpty
  split
  · next n hsrc =>
    refine if_pos (h.imp_right fun hno hc => hno n hc hsrc)
  all_goals rfl

theorem unableOccupied_refused {s : State} {i : Nat} {o : Order} {cell : Option Nat}
    (h : o.kind = .fetch ∨ o.kind = .verify ∨ ∀ n, cell = some n → o.dest ≠ some (.cell n)) :
    s.unableOccupied i o cell = refuse s .orderState := by
  unfold State.unableOccupied
  split
  · rfl
  · next n hd =>
    refine if_pos ?_
    rcases h with h | h | h
    · simp [h, OrderKind.stows]
    · simp [h, OrderKind.stows]
    · simp [show cell ≠ some n from fun hc => h n hc ((destCell_iff o n).mp hd)]

/-- The reports that UNABLE refuses (R83 to R86). -/
theorem unable_refused {s : State} {c : Crane} {h : Handle} {o : Order} (ha : s.activeOrder c h = some o)
    (hs : o.state = .dispatched ∨ o.state = .loaded) {r : UnableReason} {cell : Option Nat}
    (hr : r = .emptySource ∧ (o.state = .loaded ∨ o.kind = .verify ∨ ∀ n, cell = some n → o.source ≠ .cell n) ∨
      r = .occupiedDest ∧ (o.state = .dispatched ∨
        o.dest ≠ none ∧ (o.kind = .fetch ∨ o.kind = .verify ∨ ∀ n, cell = some n → o.dest ≠ some (.cell n))) ∨
      r = .blocked ∧ (∃ n, cell = some n ∧ o.dest ≠ some (.cell n) ∧
        (o.state = .dispatched ∧ o.source ≠ .cell n ∨ o.state = .loaded ∧ o.dest ≠ none)) ∨
      r = .fire ∧ o.state = .loaded) :
    s.unable c h r cell = refuse s .orderState := by
  rcases hs with hs | hs
  · rw [unable_dispatched ha hs]
    rcases hr with ⟨rfl, hr⟩ | ⟨rfl, -⟩ | ⟨rfl, n, rfl, hd, hr⟩ | ⟨-, hl⟩
    · exact unableEmpty_refused (by simpa [hs] using hr)
    · rfl
    · refine unableBlocked_refused (fun hm => ?_)
      simp_all [mem_blockable]
    · simp [hs] at hl
  · rw [unable_loaded ha hs]
    rcases hr with ⟨rfl, -⟩ | ⟨rfl, hr⟩ | ⟨rfl, n, rfl, hd, hr⟩ | ⟨rfl, -⟩
    · simp [State.unableLoaded]
    · simp only [hs, reduceCtorEq, false_or] at hr
      obtain ⟨q, hq⟩ := Option.ne_none_iff_exists'.mp hr.1
      have hun : s.unableLoaded h.slot o .occupiedDest cell = s.unableOccupied h.slot o cell := by simp [State.unableLoaded, hq]
      rw [hun, unableOccupied_refused hr.2]
    · simp only [hs, reduceCtorEq, false_and, true_and, false_or] at hr
      obtain ⟨q, hq⟩ := Option.ne_none_iff_exists'.mp hr
      have hun : s.unableLoaded h.slot o .blocked (some n) = s.unableBlocked h.slot o (some n) := by simp [State.unableLoaded, hq]
      rw [hun]
      refine unableBlocked_refused (fun hm => ?_)
      simp_all [mem_blockable]
    · simp [State.unableLoaded]

/-- Settles O28, by the reason and the order's state. -/
theorem unableEndsOrRedestines : Obligations.UnableEndsOrRedestines := by
  refine ⟨fun s p c i g o wanted hs hp hi ha hsl hw => ?_, fun s p c i g o reason cell hs hp hi ha hsl hcell hst h => ?_⟩
  all_goals have hact := activeOrder_eq ha hsl
  · have hwant : ∀ u : State, u.stillWanted o = wanted u := fun u => by
      subst hw
      exact stillWanted_eq u o
    have hends : ∀ {reason r cell f x u}, unableReasonOf reason = some r → (∀ n, cell = some n → n < 3840) →
        s.unable c ⟨i, g⟩ r cell = State.unableEnd u i o f x →
        exec (.unable p i g reason cell) s =
          .next (acked s p .unable [.indication false, .present, .final f, .absent] (wanted (u.endOrder i f (some x)))) := by
      intro reason r cell f x u hr hcell h
      refine serve_acked hs (crane_taken hp (by decide)) ?_
      rw [ownUnable_eq hp g hi hr hcell, h, State.unableEnd, hwant]
      rfl
    refine ⟨fun n hst hsrc hn hk => ?_, fun n u hst hk hd hn hu => ?_, fun cell reason f x hcell h => ?_, fun n u hn hst h => ?_⟩
    · have hver : ¬(o.kind = .verify ∨ (some n : Option Nat) ≠ some n) := by rcases hk with hk | hk <;> simp [hk]
      have hplace : ∀ u : State, wanted u = u := fun u => by rw [← hwant, stillWanted_eq, hsrc]
      have := hends (reason := 0) (r := .emptySource) (cell := some n) (f := .failed) (x := .failed) (u := s.enterSuspect n) rfl
        (by simpa using hn) (by simp only [unable_dispatched hact hst, State.unableDispatched, State.unableEmpty, hsrc, if_neg hver])
      rwa [hplace] at this
    · refine serve_acked hs (crane_taken hp (by decide)) ?_
      rw [ownUnable_eq hp g hi (r := .occupiedDest) rfl (by simpa using hn), unable_loaded hact hst]
      simp [State.unableLoaded, hd, State.unableOccupied, (destCell_iff o n).mpr hd, (stows_iff _).mpr hk, State.unableOn, hu]
    · rcases h with ⟨hst, hr, rfl, rfl⟩ | ⟨hst, rfl, rfl, rfl⟩ | ⟨hst, hd, hr, rfl, rfl⟩
      · rcases hr with rfl | ⟨rfl, rfl⟩
        · exact hends (r := .mechanical) rfl hcell (unable_fails hact hst (.inl rfl))
        · exact hends (r := .blocked) rfl hcell (unable_fails hact hst (.inr ⟨rfl, rfl⟩))
      · exact hends (r := .fire) rfl hcell (unable_dispatched hact hst ..)
      · rcases hr with rfl | rfl
        · exact hends (r := .occupiedDest) rfl hcell (unable_lost hact hst hd (.inl rfl) cell)
        · exact hends (r := .blocked) rfl hcell (unable_lost hact hst hd (.inr rfl) cell)
    · refine hends (r := .blocked) rfl (by simpa using hn) ?_
      have hun : s.unable c ⟨i, g⟩ .blocked (some n) = s.unableBlocked i o (some n) := by
        rcases hst with ⟨hst, -⟩ | ⟨hst, hd⟩
        · rw [unable_dispatched hact hst]
          rfl
        · rw [unable_loaded hact hst]
          simp [State.unableLoaded, hd]
      rw [hun, unableBlocked_named (mem_blockable.mpr hst), blockNamed_eq h]
  · have hrefused : ∀ {r}, unableReasonOf reason = some r → s.unable c ⟨i, g⟩ r cell = refuse s .orderState →
        exec (.unable p i g reason cell) s = .next (refused s p .unable .orderState none) := by
      intro r hr h
      refine serve_refused hs (crane_taken hp (by decide)) ?_
      rw [ownUnable_eq hp g hi hr hcell, h]
      rfl
    rcases h with ⟨rfl, h⟩ | ⟨rfl, h⟩ | ⟨rfl, h⟩ | ⟨rfl, h⟩
    · exact hrefused rfl (unable_refused hact hst (.inl ⟨rfl, h⟩))
    · exact hrefused rfl (unable_refused hact hst (.inr (.inl ⟨rfl, h⟩)))
    · exact hrefused rfl (unable_refused hact hst (.inr (.inr (.inl ⟨rfl, h⟩))))
    · exact hrefused rfl (unable_refused hact hst (.inr (.inr (.inr ⟨rfl, h⟩))))

end Sys2Proof.Machine
end
/-! # Reserving and releasing rail -/
section
namespace Sys2Proof.Machine

theorem okSegment_iff (n : Nat) : okSegment n = true ↔ n < 42 := by simp [okSegment]

/-! ## Searches over a run of segments -/

theorem find?_upTo_some (p : Nat → Bool) (lo hi d : Nat) :
    (upTo lo hi).find? p = some d ↔ lowestIn lo hi (fun n => p n = true) d := by
  rw [upTo, List.find?_range'_eq_some, lowestIn]
  simp only [List.mem_range'_1, Bool.not_eq_true', Bool.not_eq_true]
  constructor
  · rintro ⟨h1, ⟨h2, h3⟩, h4⟩
    exact ⟨h2, by omega, h1, h4⟩
  · rintro ⟨h1, h2, h3, h4⟩
    exact ⟨h3, ⟨h1, by omega⟩, h4⟩

theorem find?_upTo_none (p : Nat → Bool) (lo hi : Nat) :
    (upTo lo hi).find? p = none ↔ ∀ n, lo ≤ n → n ≤ hi → p n = false := by
  simp [List.find?_eq_none, mem_upTo]

theorem lowestIn_congr {lo hi d : Nat} {p q : Nat → Prop} (h : ∀ n, p n ↔ q n) : lowestIn lo hi p d ↔ lowestIn lo hi q d := by
  simp [lowestIn, h]

/-- The ends of a holding, from its lowest and its highest segment. -/
theorem holdingEnds_of {s : State} {c : Crane} {a b : Nat} (ha : a < 42 ∧ s.holds c a = true) (hb : b < 42 ∧ s.holds c b = true)
    (hin : ∀ n, n < 42 → s.holds c n = true → a ≤ n ∧ n ≤ b) : s.holdingEnds c = some (a, b) := by
  cases h : s.holdingEnds c with
  | none => simp [(holdingEnds_none s c).mp h a ha.1] at ha
  | some e =>
    obtain ⟨x, y⟩ := e
    obtain ⟨hx, hy, hin'⟩ := holdingEnds_some h
    have h1 := hin x hx.1 hx.2
    have h2 := hin y hy.1 hy.2
    have h3 := hin' a ha.1 ha.2
    have h4 := hin' b hb.1 hb.2
    rw [show x = a by omega, show y = b by omega]

/-! ## RSV (R115, R116) -/

theorem ownRsv_eq {p : Port} {c : Crane} (hp : craneOfPort p = some c) {lo hi : Nat} (hlo : lo < 42) (hhi : hi < 42) (s : State) :
    ownRsv p (lo, hi) s = s.rsv c lo hi := by
  simp [ownRsv, (okSegment_iff lo).mpr hlo, (okSegment_iff hi).mpr hhi, onCrane_eq hp]

theorem rsvConflict_some {s : State} {c : Crane} {lo hi d : Nat} :
    s.rsvConflict c lo hi = some d ↔ lowestIn lo hi (fun n => (s.seg n).holder = some (otherCrane c)) d := by
  rw [State.rsvConflict, find?_upTo_some]
  exact lowestIn_congr (holds_eq_true s _)

theorem rsvConflict_none {s : State} {c : Crane} {lo hi : Nat} :
    s.rsvConflict c lo hi = none ↔ ∀ n, lo ≤ n → n ≤ hi → (s.seg n).holder ≠ some (otherCrane c) := by
  rw [State.rsvConflict, find?_upTo_none]
  simp [State.holds]

theorem rsvSealed_some {s : State} {c : Crane} {lo hi d : Nat} :
    s.rsvSealed c lo hi = some d ↔
      lowestIn lo hi (fun n => (s.seg n).holder ≠ some c ∧ (s.seg n).sealState ≠ .open) d := by
  rw [State.rsvSealed, find?_upTo_some]
  exact lowestIn_congr (by simp [State.holds])

theorem rsvSealed_none {s : State} {c : Crane} {lo hi : Nat} :
    s.rsvSealed c lo hi = none ↔ ∀ n, lo ≤ n → n ≤ hi → (s.seg n).holder ≠ some c → (s.seg n).sealState = .open := by
  rw [State.rsvSealed, find?_upTo_none]
  simp [State.holds]

/-- The union with a holding that it meets or touches, or with an empty one (R115 check 4). -/
theorem rsvUnion_eq {s : State} {c : Crane} {lo hi first last : Nat}
    (h : s.holdingEnds c = none ∧ first = lo ∧ last = hi ∨
      ∃ a b, s.holdingEnds c = some (a, b) ∧ lo ≤ b + 1 ∧ a ≤ hi + 1 ∧ first = min a lo ∧ last = max b hi) :
    s.rsvOneRun c lo hi = true ∧ s.rsvUnion c lo hi = (first, last) := by
  rcases h with ⟨h, rfl, rfl⟩ | ⟨a, b, h, h1, h2, rfl, rfl⟩ <;> simp [State.rsvOneRun, State.rsvUnion, *]

theorem rsvOrder_A {s : State} {first last a b : Nat} (h : s.holdingEnds .B = some (a, b)) (hl : a ≤ last) :
    s.rsvOrder .A first last = some a := by
  simp [State.rsvOrder, otherCrane, h, hl]

theorem rsvOrder_B {s : State} {first last a b : Nat} (h : s.holdingEnds .A = some (a, b)) (hl : first ≤ b) :
    s.rsvOrder .B first last = some b := by
  simp [State.rsvOrder, otherCrane, h, hl]

theorem rsvOrder_none {s : State} {c : Crane} {first last : Nat}
    (h : ∀ a b, s.holdingEnds (otherCrane c) = some (a, b) → (c = .A → last < a) ∧ (c = .B → b < first)) :
    s.rsvOrder c first last = none := by
  unfold State.rsvOrder
  split
  · rfl
  · next a b he =>
    obtain ⟨hA, hB⟩ := h a b he
    cases c with
    | A => exact if_pos (hA rfl)
    | B => exact if_pos (hB rfl)

theorem shutterNumbers_eq : shutterNumbers = upTo 0 2 := by decide

theorem rsvBarrier_some {s : State} {first last k : Nat} :
    s.rsvBarrier first last = some k ↔
      lowestIn 0 2 (fun k => (s.shutter k).state ≠ .open ∧ first ≤ 10 * k + 10 ∧ 10 * k + 11 ≤ last) k := by
  rw [State.rsvBarrier, shutterNumbers_eq, find?_upTo_some]
  exact lowestIn_congr fun n => by
    rw [Bool.and_eq_true, Bool.not_eq_true', ← Bool.not_eq_true, shutterOpen_iff, spans_iff]

theorem rsvBarrier_none {s : State} {first last : Nat} :
    s.rsvBarrier first last = none ↔ ∀ k, k < 3 → (s.shutter k).state ≠ .open → ¬(first ≤ 10 * k + 10 ∧ 10 * k + 11 ≤ last) := by
  rw [State.rsvBarrier, List.find?_eq_none, forall_shutterNumbers]
  refine forall_congr' fun k => imp_congr_right fun _ => ?_
  rw [Bool.and_eq_true, Bool.not_eq_true', ← Bool.not_eq_true, shutterOpen_iff, spans_iff, not_and]

/-- RSV's refusals check by check (R115). -/
theorem rsv_refused_conflict {s : State} {c : Crane} {lo hi d : Nat} (h0 : lo ≤ hi) (h : s.rsvConflict c lo hi = some d) :
    s.rsv c lo hi = refuseDetail s .conflict d := by simp [State.rsv, h0, h]

theorem rsv_refused_sealed {s : State} {c : Crane} {lo hi d : Nat} (h0 : lo ≤ hi) (h1 : s.rsvConflict c lo hi = none)
    (h : s.rsvSealed c lo hi = some d) : s.rsv c lo hi = refuseDetail s .zoneClosed d := by simp [State.rsv, h0, h1, h]

theorem rsv_refused_run {s : State} {c : Crane} {lo hi : Nat} (h1 : s.rsvConflict c lo hi = none)
    (h2 : s.rsvSealed c lo hi = none) (h : s.rsvOneRun c lo hi = false) : s.rsv c lo hi = refuse s .range := by
  simp [State.rsv, h1, h2, h]

theorem rsv_refused_order {s : State} {c : Crane} {lo hi first last d : Nat} (h0 : lo ≤ hi) (h1 : s.rsvConflict c lo hi = none)
    (h2 : s.rsvSealed c lo hi = none) (h3 : s.rsvOneRun c lo hi = true ∧ s.rsvUnion c lo hi = (first, last))
    (h : s.rsvOrder c first last = some d) : s.rsv c lo hi = refuseDetail s .conflict d := by
  simp [State.rsv, h0, h1, h2, h3, h]

theorem rsv_refused_barrier {s : State} {c : Crane} {lo hi first last d : Nat} (h0 : lo ≤ hi) (h1 : s.rsvConflict c lo hi = none)
    (h2 : s.rsvSealed c lo hi = none) (h3 : s.rsvOneRun c lo hi = true ∧ s.rsvUnion c lo hi = (first, last))
    (h4 : s.rsvOrder c first last = none) (h : s.rsvBarrier first last = some d) :
    s.rsv c lo hi = refuseDetail s .barrier d := by
  simp [State.rsv, h0, h1, h2, h3, h4, h]

theorem rsv_granted {s : State} {c : Crane} {lo hi first last : Nat} (h0 : lo ≤ hi) (h1 : s.rsvConflict c lo hi = none)
    (h2 : s.rsvSealed c lo hi = none) (h3 : s.rsvOneRun c lo hi = true ∧ s.rsvUnion c lo hi = (first, last))
    (h4 : s.rsvOrder c first last = none) (h5 : s.rsvBarrier first last = none) :
    s.rsv c lo hi = (s.grant c lo hi, .ack (heldFields ((s.grant c lo hi).holdingEnds c))) := by
  simp [State.rsv, h0, h1, h2, h3, h4, h5]

/-- The permit condition does not read the permit. -/
theorem permitHolds_setPermit (s : State) (c : Crane) (v : Bool) :
    (s.setCrane c { s.crane c with permit := v }).permitHolds c = s.permitHolds c := by
  simp [State.permitHolds, CraneRec.tripAllows, CraneRec.keepaliveRunning, State.holds]

/-- Segment updates followed by the permit's evaluation: the segments and crane X's permit, and nothing else. -/
theorem foldSeg_frame {f : State → Nat → State} (hf : ∀ u n, ∃ r, f u n = u.setSeg n r ∨ f u n = u) (l : List Nat) (s : State)
    (c : Crane) {t : State} (ht : t = (l.foldl f s).refreshPermit c) :
    t = ({ s with segs := t.segs } : State).setCrane c { s.crane c with permit := t.permitHolds c } := by
  have hsegs : ∃ w, l.foldl f s = { s with segs := w } := by
    refine foldl_keeps (P := fun u => ∃ w, u = { s with segs := w }) ?_ l ⟨s.segs, rfl⟩
    rintro u n ⟨w, rfl⟩
    obtain ⟨r, e | e⟩ := hf { s with segs := w } n
    · exact ⟨_, e⟩
    · exact ⟨w, e⟩
  obtain ⟨w, hw⟩ := hsegs
  have hcrane : ({ s with segs := w } : State).crane c = s.crane c := by cases c <;> rfl
  have hpermit : t.permitHolds c = ({ s with segs := w } : State).permitHolds c := by
    rw [ht, hw]
    exact permitHolds_setPermit ..
  have htw : t.segs = w := by rw [ht, hw]; cases c <;> rfl
  rw [hpermit, htw, ht, hw, State.refreshPermit, hcrane]

theorem grant_frame (s : State) (c : Crane) (lo hi : Nat) :
    s.grant c lo hi =
      ({ s with segs := (s.grant c lo hi).segs } : State).setCrane c { s.crane c with permit := (s.grant c lo hi).permitHolds c } :=
  foldSeg_frame (grantSeg_writes c) (upTo lo hi) s c rfl

theorem release_frame (s : State) (c : Crane) (lo hi : Nat) :
    s.release c lo hi =
      ({ s with segs := (s.release c lo hi).segs } : State).setCrane c { s.crane c with permit := (s.release c lo hi).permitHolds c } :=
  foldSeg_frame (fun _ _ => ⟨_, .inl rfl⟩) (upTo lo hi) s c rfl

/-- Settles O29: the checks of R115 in order, and the grant of R116. -/
theorem rsvGrantsOrIsRefused : Obligations.RsvGrantsOrIsRefused := by
  refine ⟨fun s p c lo hi hs hp hlo hhi => ?_, fun s p c lo hi first last hs hp hle hhi hfree hun hord hbar => ?_⟩
  · have href : ∀ {r d}, s.rsv c lo hi = (s, .nak r d) → exec (.rsv p lo hi) s = .next (refused s p .rsv r d) := fun h =>
      serve_refused hs (crane_taken hp (by decide)) ((ownRsv_eq hp hlo hhi s).trans h)
    refine ⟨fun h => href ?_, fun h0 => ⟨fun d hd => href (rsv_refused_conflict h0 (rsvConflict_some.mpr hd)), fun h1 => ?_⟩⟩
    · rw [State.rsv, if_pos h]
      rfl
    have h1 := rsvConflict_none.mpr h1
    refine ⟨fun d hd => href (rsv_refused_sealed h0 h1 (rsvSealed_some.mpr hd)), fun h2 => ?_⟩
    have h2 := rsvSealed_none.mpr h2
    refine ⟨fun a b he hout => href (rsv_refused_run h1 h2 ?_), fun first last hun => ⟨fun a b he => ⟨?_, ?_⟩, fun hord k hk => ?_⟩⟩
    · simp only [State.rsvOneRun, he, decide_eq_false_iff_not]
      omega
    · rintro rfl hle
      exact href (rsv_refused_order h0 h1 h2 (rsvUnion_eq hun) (rsvOrder_A he hle))
    · rintro rfl hle
      exact href (rsv_refused_order h0 h1 h2 (rsvUnion_eq hun) (rsvOrder_B he hle))
    · exact href (rsv_refused_barrier h0 h1 h2 (rsvUnion_eq hun) (rsvOrder_none hord) (rsvBarrier_some.mpr hk))
  · have h1 : s.rsvConflict c lo hi = none := rsvConflict_none.mpr fun n hn1 hn2 hh => by
      rcases hfree n hn1 hn2 with h | ⟨h, -⟩
      · rw [h, Option.some.injEq] at hh
        exact otherCrane_ne c hh.symm
      · simp [h] at hh
    have h2 : s.rsvSealed c lo hi = none := rsvSealed_none.mpr fun n hn1 hn2 hh => by
      rcases hfree n hn1 hn2 with h | ⟨-, h⟩
      · exact absurd h hh
      · exact h
    refine ⟨s.grant c lo hi, _, ?_, grant_frame s c lo hi, rfl, fun n => ?_, fun hsafe => ?_⟩
    · exact serve_acked hs (crane_taken hp (by decide)) ((ownRsv_eq hp (by omega) hhi s).trans
        (rsv_granted hle h1 h2 (rsvUnion_eq hun) (rsvOrder_none hord) (rsvBarrier_none.mpr hbar)))
    · rw [grant_seg, grantedSeg]
      by_cases hin : lo ≤ n ∧ n ≤ hi
      · simp [hin]
      · rw [if_neg hin, if_neg (fun h => hin ⟨h.1, h.2.1⟩)]
    · have hholds := fun n => grant_holder h1 h2 c n
      simp only [true_and] at hholds
      rcases hun with ⟨he, rfl, rfl⟩ | ⟨a, b, he, hl, hr, rfl, rfl⟩
      · have hnone := hsafe.holds_none he
        refine holdingEnds_of ⟨by omega, (hholds _).mpr (.inr ⟨le_refl _, hle⟩)⟩ ⟨hhi, (hholds _).mpr (.inr ⟨hle, le_refl _⟩)⟩ ?_
        intro n hn h
        rcases (hholds n).mp h with h | h
        · simp [hnone] at h
        · exact h
      · have hends := hsafe.holds_iff he
        obtain ⟨⟨ha, -⟩, ⟨hb, -⟩, -⟩ := holdingEnds_some he
        simp only [hends] at hholds
        have hab : a ≤ b := ((hends a).mp (holdingEnds_some he).1.2).2
        refine holdingEnds_of ⟨by omega, (hholds _).mpr (by omega)⟩ ⟨by omega, (hholds _).mpr (by omega)⟩ ?_
        intro n hn h
        have := (hholds n).mp h
        omega

/-! ## REL and FREL (R118, R119, R122) -/

theorem craneOfCode_craneCode (c : Crane) : craneOfCode (craneCode c) = some c := by cases c <;> rfl

theorem ownRel_eq {p : Port} {c : Crane} (hp : craneOfPort p = some c) {lo hi : Nat} (hlo : lo < 42) (hhi : hi < 42) (s : State) :
    ownRel p (lo, hi) s = s.rel c lo hi := by
  simp [ownRel, (okSegment_iff lo).mpr hlo, (okSegment_iff hi).mpr hhi, onCrane_eq hp]

theorem ownFrel_eq (c : Crane) {lo hi : Nat} (hlo : lo < 42) (hhi : hi < 42) (s : State) :
    ownFrel (craneCode c, lo, hi) s = s.frel c lo hi := by
  simp [ownFrel, craneOfCode_craneCode, (okSegment_iff lo).mpr hlo, (okSegment_iff hi).mpr hhi]

theorem notOwned_some {s : State} {c : Crane} {lo hi d : Nat} :
    s.notOwned c lo hi = some d ↔ lowestIn lo hi (fun n => (s.seg n).holder ≠ some c) d := by
  rw [State.notOwned, find?_upTo_some]
  exact lowestIn_congr (by simp [State.holds])

theorem notOwned_none {s : State} {c : Crane} {lo hi : Nat} :
    s.notOwned c lo hi = none ↔ ∀ n, lo ≤ n → n ≤ hi → (s.seg n).holder = some c := by
  rw [State.notOwned, find?_upTo_none]
  simp [State.holds]

theorem leavesRun_iff {s : State} {c : Crane} {lo hi a b : Nat} (h : s.holdingEnds c = some (a, b)) :
    s.leavesRun c lo hi = true ↔ lo = a ∨ hi = b := by
  simp [State.leavesRun, h]

theorem touchedIn_some {s : State} {c : Crane} {lo hi d : Nat} :
    s.touchedIn c lo hi = some d ↔ lowestIn lo hi (fun n => (s.crane c).touchFirst ≤ n ∧ n ≤ (s.crane c).touchLast) d := by
  rw [State.touchedIn, find?_upTo_some]
  exact lowestIn_congr (by simp)

theorem touchedIn_none {s : State} {c : Crane} {lo hi : Nat} :
    s.touchedIn c lo hi = none ↔ ∀ n, lo ≤ n → n ≤ hi → ¬((s.crane c).touchFirst ≤ n ∧ n ≤ (s.crane c).touchLast) := by
  rw [State.touchedIn, find?_upTo_none]
  simp

/-- A release of owned segments strands the end segment where it takes it and leaves others (R118 check 5). -/
theorem strandsEnd_iff {s : State} {c : Crane} {lo hi a b : Nat} (he : s.holdingEnds c = some (a, b)) (hle : lo ≤ hi) (hhi : hi < 42)
    (hown : ∀ n, lo ≤ n → n ≤ hi → (s.seg n).holder = some c) :
    s.strandsEnd c lo hi = true ↔
      (s.crane c).ref = none ∧ (lo ≤ endSegment c ∧ endSegment c ≤ hi) ∧ (lo ≠ a ∨ hi ≠ b) := by
  obtain ⟨⟨ha, hha⟩, ⟨hb, hhb⟩, hin⟩ := holdingEnds_some he
  have hl := hin lo (by omega) ((holds_eq_true ..).mpr (hown lo (le_refl _) hle))
  have hh := hin hi hhi ((holds_eq_true ..).mpr (hown hi hle (le_refl _)))
  have hothers : (s.holding c).any (fun n => decide (n < lo ∨ hi < n)) = true ↔ lo ≠ a ∨ hi ≠ b := by
    simp only [List.any_eq_true, mem_holding, decide_eq_true_eq]
    constructor
    · rintro ⟨n, ⟨hn, hnh⟩, hout⟩
      have := hin n hn hnh
      omega
    · rintro (h | h)
      · exact ⟨a, ⟨ha, hha⟩, by omega⟩
      · exact ⟨b, ⟨hb, hhb⟩, by omega⟩
  simp only [State.strandsEnd, Bool.and_eq_true, Option.isNone_iff_eq_none, decide_eq_true_eq, hothers, and_assoc]

/-- The checks that REL and FREL share, and what they answer (R118, R122). -/
structure ReleaseChecks (s : State) (c : Crane) (lo hi : Nat) (r : State × Reply) : Prop where
  order : hi < lo → r = refuse s .range
  owner : lo ≤ hi → ∀ d, s.notOwned c lo hi = some d → r = refuseDetail s .notOwner d
  run : s.notOwned c lo hi = none → s.leavesRun c lo hi = false → r = refuse s .range
  touched : lo ≤ hi → s.notOwned c lo hi = none → s.leavesRun c lo hi = true → ∀ d, s.touchedIn c lo hi = some d →
    r = refuseDetail s .conflict d

theorem rel_checks (s : State) (c : Crane) (lo hi : Nat) : ReleaseChecks s c lo hi (s.rel c lo hi) where
  order h := by simp [State.rel, h]
  owner h0 d h := by simp [State.rel, h0, h]
  run h1 h := by simp [State.rel, h1, h]
  touched h0 h1 h2 d h := by simp [State.rel, h0, h1, h2, h]

theorem frel_checks {s : State} {c : Crane} (hp : (s.crane c).permit = false) (lo hi : Nat) :
    ReleaseChecks s c lo hi (s.frel c lo hi) where
  order h := by simp [State.frel, h]
  owner h0 d h := by simp [State.frel, h0, h, hp]
  run h1 h := by simp [State.frel, h1, h, hp]
  touched h0 h1 h2 d h := by simp [State.frel, h0, h1, h2, h, hp]

theorem freedSeg_eq (x : Segment) :
    freedSeg x = ⟨none, if x.sealState = .sealPending then .sealed else x.sealState⟩ := by
  unfold freedSeg
  cases x.sealState <;> rfl

/-- Settles O30: the release by its segments, the refusals by the checks that REL and FREL share. -/
theorem relAndFrelReleaseOrAreRefused : Obligations.RelAndFrelReleaseOrAreRefused := by
  refine ⟨fun s c lo hi a b he hle hhi hends hok => ?_, fun s p c lo hi hs hlo hhi => ⟨fun k i hki => ?_, fun hp hperm => ?_⟩⟩
  · have h1 : s.notOwned c lo hi = none := notOwned_none.mpr fun n h1 h2 => (hok n h1 h2).1
    have h2 : s.leavesRun c lo hi = true := (leavesRun_iff he).mpr hends
    have h3 : s.touchedIn c lo hi = none := touchedIn_none.mpr fun n h1 h2 => (hok n h1 h2).2
    refine ⟨s.release c lo hi, _, release_frame s c lo hi, rfl, fun n => ?_, fun p hs hp hend => ?_, fun hs hperm => ?_⟩
    · rw [release_seg, freedSeg_eq]
    · have h4 : s.strandsEnd c lo hi = false := by
        rw [← Bool.not_eq_true, strandsEnd_iff he hle hhi (notOwned_none.mp h1)]
        rintro ⟨hr, ⟨h5, h6⟩, h7⟩
        have := hend hr h5 h6
        omega
      refine serve_acked hs (crane_taken hp (by decide)) ((ownRel_eq hp (by omega) hhi s).trans ?_)
      simp [State.rel, hle, h1, h2, h3, h4]
    · refine serve_acked hs rfl ((ownFrel_eq c (by omega) hhi s).trans ?_)
      simp [State.frel, hle, h1, h2, h3, hperm]
  · have hserve : ∃ r, ReleaseChecks s c lo hi r ∧ (k = .rel → r = s.rel c lo hi) ∧
        ∀ {e d}, r = (s, .nak e d) → exec i s = .next (refused s p k e d) := by
      rcases hki with ⟨hp, rfl, rfl⟩ | ⟨rfl, rfl, rfl, hperm⟩
      · exact ⟨_, rel_checks s c lo hi, fun _ => rfl, fun h =>
          serve_refused hs (crane_taken hp (by decide)) ((ownRel_eq hp hlo hhi s).trans h)⟩
      · exact ⟨_, frel_checks hperm lo hi, fun h => (Kind.noConfusion h), fun h =>
          serve_refused hs rfl ((ownFrel_eq c hlo hhi s).trans h)⟩
    obtain ⟨r, hr, hrel, href⟩ := hserve
    refine ⟨fun h => href (hr.order h), fun h0 => ⟨fun d hd => href (hr.owner h0 d (notOwned_some.mpr hd)), fun hown a b he => ?_⟩⟩
    have h1 := notOwned_none.mpr hown
    refine ⟨fun ha hb => href (hr.run h1 ?_), fun hab => ⟨fun d hd => ?_, fun htouch hk href' hle1 hle2 hout => ?_⟩⟩
    · rw [← Bool.not_eq_true, leavesRun_iff he]
      exact fun h => h.elim ha hb
    · exact href (hr.touched h0 h1 ((leavesRun_iff he).mpr hab) d (touchedIn_some.mpr hd))
    · refine href ((hrel hk).trans ?_)
      have h4 := (strandsEnd_iff he h0 hhi hown).mpr ⟨href', ⟨hle1, hle2⟩, hout⟩
      simp [State.rel, h0, h1, (leavesRun_iff he).mpr hab, touchedIn_none.mpr htouch, h4, refuseDetail]
  · subst hp
    refine serve_refused hs rfl ((ownFrel_eq c hlo hhi s).trans ?_)
    by_cases h : hi < lo <;> simp [State.frel, h, hperm, refuse]

end Sys2Proof.Machine
end
/-! # Trips, timers and service intervention -/
section
namespace Sys2Proof.Machine

/-! ## Latching a trip (R102 to R104) -/

/-- Crane X's record with a trip latched and the permit evaluated again (R102 to R104). -/
def State.tripped (s : State) (c : Crane) (cause : TripCause) : CraneRec :=
  { (s.crane c).withTrip cause with permit := (s.setCrane c ((s.crane c).withTrip cause)).permitHolds c }

theorem hasTrip_iff {r : CraneRec} (h : TripSound r) (cause : TripCause) : r.hasTrip cause = true ↔ cause ∈ r.tripCauses := by
  cases hl : r.tripLatched with
  | true => simp [CraneRec.hasTrip, hl]
  | false => simp [CraneRec.hasTrip, hl, (h.clear hl).2]

theorem latchTrip_same {s : State} {c : Crane} {cause : TripCause} (h : (s.crane c).hasTrip cause = true) :
    s.latchTrip c cause = s := by simp [State.latchTrip, h]

theorem latchTrip_new {s : State} {c : Crane} {cause : TripCause} (h : (s.crane c).hasTrip cause = false) :
    s.latchTrip c cause =
      ((s.setCrane c (s.tripped c cause)).raise (portOf c)
        (.trip c (s.tripped c cause).tripFirst (s.tripped c cause).tripCauses (s.tripped c cause).ref.isSome)).raise .S
        (.trip c (s.tripped c cause).tripFirst (s.tripped c cause).tripCauses (s.tripped c cause).ref.isSome) := by
  simp only [State.latchTrip, h, refreshPermit_eq, State.tripNotice, State.setCrane_crane_same]
  rfl

theorem tripped_causes {s : State} {c : Crane} {cause : TripCause} (h : TripSound (s.crane c)) (x : TripCause) :
    x ∈ (s.tripped c cause).tripCauses ↔ x = cause ∨ x ∈ (s.crane c).tripCauses := by
  cases hl : (s.crane c).tripLatched with
  | true => simp [State.tripped, CraneRec.withTrip, hl, mem_addCause]
  | false => simp [State.tripped, CraneRec.withTrip, hl, (h.clear hl).2]

theorem tripped_sound {s : State} {c : Crane} {cause : TripCause} (h : TripSound (s.crane c)) : TripSound (s.tripped c cause) :=
  (h.withTrip cause).same ⟨rfl, rfl, rfl, rfl, rfl⟩

/-- The permit of a tripped crane: FIRE alone in its set, and creep permitted (R104). -/
theorem tripped_permit (s : State) (c : Crane) (cause : TripCause) :
    (s.tripped c cause).permit =
      (decide ((s.tripped c cause).tripCauses = [.fire]) && (s.tripped c cause).creep && (s.tripped c cause).keepaliveRunning &&
        ((s.tripped c cause).ref.isSome || s.holds c (endSegment c))) := by
  simp only [State.tripped, State.permitHolds, State.setCrane_crane_same]
  simp [CraneRec.tripAllows, CraneRec.withTrip, CraneRec.keepaliveRunning, State.holds, beq_eq_decide]

/-- Settles O31. -/
theorem aTripIsLatched : Obligations.ATripIsLatched := by
  intro s c cause h
  refine ⟨fun hm => latchTrip_same ((hasTrip_iff h cause).mpr hm), fun hm => ?_⟩
  have hno : (s.crane c).hasTrip cause = false := by
    rw [← Bool.not_eq_true, hasTrip_iff h]
    exact hm
  exact ⟨_, latchTrip_new hno, rfl, tripped_causes h, tripped_sound h, tripped_permit s c cause⟩

/-! ## Service intervention (R108, R109) -/

theorem craneOfCode_none {n : Nat} (h : 2 ≤ n) : craneOfCode n = none := by
  match n, h with
  | n + 2, _ => rfl

/-- Settles O32. -/
theorem stopCreepAndCrendReachTheNamedCrane : Obligations.StopCreepAndCrendReachTheNamedCrane := by
  intro s hs
  refine ⟨fun c u hu => ?_, fun c k v i h => ?_, fun n hn => ⟨?_, ?_, ?_⟩⟩
  · subst hu
    refine serve_acked hs rfl ?_
    simp [ownStop, craneOfCode_craneCode, State.tripFields]
  · have hown : ownCreep v (craneCode c) s =
        (s.setCrane c
          { s.crane c with
            creep := v
            permit := (!(s.crane c).tripLatched || decide ((s.crane c).tripCauses = [.fire]) && v) &&
              (s.crane c).keepaliveRunning && ((s.crane c).ref.isSome || s.holds c (endSegment c)) },
          .ack ([.named (if v then 0 else 1)] ++ optField (fun t => .named t.code) (s.crane c).tripFirst ++
            [causeMask (s.crane c).tripCauses])) := by
      simp only [ownCreep, craneOfCode_craneCode, State.setCreep, refreshPermit_eq, State.permitHolds, State.tripFields,
        State.setCrane_crane_same]
      simp [CraneRec.tripAllows, CraneRec.keepaliveRunning, State.holds, beq_eq_decide, flagField]
    rcases h with ⟨rfl, rfl, rfl⟩ | ⟨rfl, rfl, rfl⟩
    · exact serve_acked hs rfl hown
    · exact serve_acked hs rfl hown
  all_goals
    refine serve_refused hs rfl ?_
    simp [ownStop, ownCreep, craneOfCode_none hn, refuse]

/-! ## Timers (R58, R106) -/

theorem keepaliveRunning_iff (r : CraneRec) : r.keepaliveRunning = true ↔ ∃ ms, r.keepalive = .running ms := by
  unfold CraneRec.keepaliveRunning
  cases r.keepalive <;> simp

/-- A keepalive that expires takes the permit with it (R104, R106). -/
theorem setKeepalive_expired (s : State) (c : Crane) :
    s.setKeepalive c (s.crane c).window .expired = s.setCrane c { s.crane c with keepalive := .expired, permit := false } := by
  simp [State.setKeepalive, refreshPermit_eq, State.permitHolds, CraneRec.keepaliveRunning]

/-- Settles O34. -/
theorem timersRunOut : Obligations.TimersRunOut := by
  intro s hs
  refine ⟨fun c hk => ?_, fun c hk => ?_, fun i g o hsl ht => ?_, fun i hno => ?_⟩
  · refine (whenRunning_run hs).trans ?_
    rw [if_pos ((keepaliveRunning_iff _).mpr hk), setKeepalive_expired]
  · refine (whenRunning_run hs).trans ?_
    rw [if_neg fun h => ((keepaliveRunning_iff _).mp h).elim hk]
  · refine (whenRunning_run hs).trans ?_
    simp [hsl, Option.isSome_iff_ne_none.mpr ht, State.stall, State.setOrder, State.handleAt]
  · refine (whenRunning_run hs).trans ?_
    cases ho : (s.slot i).order with
    | none => rfl
    | some o => simp [hno o ho]

/-! ## CLRT (R110) -/

theorem clrt_taken {p : Port} {c : Crane} (hp : craneOfPort p = some c) : portRefusal p .clrt = none := by
  cases p <;> first | rfl | cases hp

theorem shutterBars_iff (x : ShutterState) : x.bars = true ↔ ShutterBars x := by
  cases x <;> simp [ShutterState.bars, ShutterBars]

theorem touchedBarred_iff (s : State) (c : Crane) :
    s.touchedBarred c = true ↔
      ∃ k, k < 3 ∧ ShutterBars (s.shutter k).state ∧ (s.crane c).touchFirst ≤ 10 * k + 10 ∧
        10 * k + 11 ≤ (s.crane c).touchLast := by
  have hrange : shutterNumbers = List.range 3 := rfl
  simp [State.touchedBarred, hrange, shutterBars_iff, State.touchSpans, spans_iff]

theorem zoneBars_iff (x : ZoneState) (l : List TripCause) :
    x.bars (l.contains .fire) = false ↔ x ≠ .sealing ∧ x ≠ .obstructed ∧ (.fire ∈ l → x ≠ .clearing) := by
  by_cases h : TripCause.fire ∈ l <;> cases x <;> simp [ZoneState.bars, h]

theorem touchedZones_iff (s : State) (c : Crane) :
    ((s.touched c).any fun n => (s.zone (zoneOfSegment n)).state.bars ((s.crane c).tripCauses.contains .fire)) = false ↔
      ∀ n, (s.crane c).touchFirst ≤ n → n ≤ (s.crane c).touchLast →
        (s.zone (zoneOfSegment n)).state ≠ .sealing ∧ (s.zone (zoneOfSegment n)).state ≠ .obstructed ∧
          (.fire ∈ (s.crane c).tripCauses → (s.zone (zoneOfSegment n)).state ≠ .clearing) := by
  rw [List.any_eq_false]
  simp only [State.touched, mem_upTo, Bool.not_eq_true, zoneBars_iff, and_imp]

/-- The permit after the latch is cleared: the keepalive runs, so the reference or the end segment decides (R104). -/
theorem clearTrip_eq {s : State} {c : Crane} (h : (s.crane c).keepaliveRunning = true) :
    s.clearTrip c =
      s.setCrane c
        { s.crane c with
          tripLatched := false, tripFirst := none, tripCauses := []
          permit := (s.crane c).ref.isSome || s.holds c (endSegment c) } := by
  rw [State.clearTrip, refreshPermit_eq]
  have hk : CraneRec.keepaliveRunning { s.crane c with tripLatched := false, tripFirst := none, tripCauses := [] } = true := h
  simp [State.permitHolds, CraneRec.tripAllows, hk, State.holds]

/-- Settles O35: the conditions of R110 in order. -/
theorem clrtClearsTheTrip : Obligations.ClrtClearsTheTrip := by
  intro s p c hs hp
  have hown : ownClrt p () s = s.clrt c := onCrane_eq hp s s.clrt
  refine ⟨fun hl => ?_, fun hl held zonesOk barred hheld hzones hbarred => ?_⟩
  · refine serve_acked hs (clrt_taken hp) (hown.trans ?_)
    simp [State.clrt, hl, flagField]
  · rw [← touchedHeld_iff] at hheld
    rw [← touchedZones_iff] at hzones
    rw [← touchedBarred_iff] at hbarred
    have href : ∀ {d}, s.clrtRefusal c = some d → exec (.clrt p) s = .next (refused s p .clrt .condition (some d)) := fun h =>
      serve_refused hs (clrt_taken hp) (hown.trans (by simp [State.clrt, hl, h, refuseDetail]))
    refine ⟨fun h => href ?_, fun h1 h => href ?_, fun h1 h2 h => href ?_, fun h1 h2 h3 h => href ?_,
      fun h1 h2 h3 h4 h => href ?_, fun h1 h2 h3 h4 h5 v hv => ?_⟩
    · simp [State.clrtRefusal, h, detailMoving]
    · rw [hheld] at h
      simp [State.clrtRefusal, h1, h, detailEnvelope]
    · simp [State.clrtRefusal, h1, hheld.mp h2, h, detailKeepalive]
    · rw [hzones, Bool.not_eq_false] at h
      simp only [State.clrtRefusal, h1, hheld.mp h2, h3, h]
      rfl
    · simp only [State.clrtRefusal, h1, hheld.mp h2, h3, hzones.mp h4, hbarred.mp h]
      rfl
    · have hnone : s.clrtRefusal c = none := by
        rw [hbarred, Bool.not_eq_true] at h5
        simp only [State.clrtRefusal, h1, hheld.mp h2, h3, hzones.mp h4, h5]
        rfl
      refine serve_acked hs (clrt_taken hp) (hown.trans ?_)
      simp [State.clrt, hl, hnone, clearTrip_eq h3, hv, flagField]

end Sys2Proof.Machine
end
/-! # Encoder inputs and the position sample -/
section
namespace Sys2Proof.Machine

/-! ## Filters and the counter (R91, R92) -/

theorem Filters.get_put (f : Filters) (i j : EncInput) (x : Filter) : (f.put i x).get j = if j = i then x else f.get j := by
  cases i <;> cases j <;> rfl

theorem Filter.take_spec (f : Filter) (level : Bool) (w : Nat) :
    (f.take level w).raw = level ∧ (f.take level w).filtered = f.filtered ∧
      (level = f.filtered → (f.take level w).excursion = none) ∧
      (level ≠ f.filtered → (f.take level w).excursion = some (f.excursion.getD w)) := by
  unfold Filter.take
  by_cases h : level = f.filtered
  · simp [h]
  · cases f.excursion <;> simp [h]

theorem Filter.settle_excursion {f : Filter} (h : f.excursion ≠ none) :
    f.settle = { f with filtered := !f.filtered, excursion := none } := by
  obtain ⟨w, hw⟩ := Option.ne_none_iff_exists'.mp h
  simp [Filter.settle, hw]

theorem Filter.settle_idle {f : Filter} (h : f.excursion = none) : f.settle = f := by simp [Filter.settle, h]

theorem phaseStep_one (a b : Bool) : phaseStep a b (!a) b = if a = b then .forward else .backward := by
  cases a <;> cases b <;> rfl

theorem phaseStep_two (a b : Bool) : phaseStep a b a (!b) = if a = b then .backward else .forward := by
  cases a <;> cases b <;> rfl

theorem phaseStep_both (a b : Bool) : phaseStep a b (!a) (!b) = .illegal := by cases a <;> cases b <;> rfl

theorem phaseStep_same (a b : Bool) : phaseStep a b a b = .none := by cases a <;> cases b <;> rfl

/-- A crane that becomes UNREFERENCED: its permit then rests on its end segment (R104). -/
theorem unreference_eq (s : State) (c : Crane) (r : CraneRec) :
    (s.setCrane c r).unreference c =
      s.setCrane c { r with ref := none, permit := r.tripAllows && r.keepaliveRunning && s.holds c (endSegment c) } := by
  simp [State.unreference, refreshPermit_eq, State.permitHolds, State.holds, CraneRec.tripAllows, CraneRec.keepaliveRunning]

/-- A deviation above 4 from the nearest multiple of CPR (R94). -/
theorem indexDeviation_slips {counter phase : Counter} {cpr : Nat} (hc : 0 < cpr) {d : Int}
    (hd : d = (counter - phase).toInt % (cpr : Int)) :
    4 < (indexDeviation counter phase cpr).natAbs ↔ 4 < d ∧ (d ≤ ((cpr / 2 : Nat) : Int) ∨ d < (cpr : Int) - 4) := by
  have h0 : 0 ≤ d := hd ▸ Int.emod_nonneg _ (by omega)
  have h1 : d < cpr := hd ▸ Int.emod_lt_of_pos _ (by omega)
  unfold indexDeviation
  rw [← hd]
  dsimp only
  split <;> omega

/-- The window of an edge input that ends: the filter settles, and a rising edge acts (R91). -/
theorem settleEdge_eq {s t : State} {c : Crane} {i : EncInput} {g : Filter} {act : State → State}
    (hg : g = (s.crane c).filters.get i) (he : g.excursion ≠ none)
    (ht : t = s.setCrane c
      { s.crane c with filters := (s.crane c).filters.put i { g with filtered := !g.filtered, excursion := none } }) :
    s.settleEdge c i act = if g.filtered = false then act t else t := by
  subst hg ht
  simp [State.settleEdge, Filter.settle_excursion he, State.setFilters]

theorem captureHome_eq (s : State) (c : Crane) (r : CraneRec) :
    (s.setCrane c r).captureHome c =
      s.setCrane c
        { r with
          ref := some ⟨r.counter, none, (s.craneSettings c).home⟩
          permit := r.tripAllows && r.keepaliveRunning } := by
  simp [State.captureHome, refreshPermit_eq, State.permitHolds, State.holds, CraneRec.tripAllows, CraneRec.keepaliveRunning]

/-- Settles O37. -/
theorem encoderInputsAreFiltered : Obligations.EncoderInputsAreFiltered := by
  refine ⟨fun s c i level hs => ?_, fun s c r p1 p2 hs hr h1 h2 => ?_, fun s t c r i g w hs hr hw hg he ht => ?_⟩
  · obtain ⟨hraw, hfil, hsame, hopp⟩ := ((s.crane c).filters.get i).take_spec level (s.craneSettings c).filterWindow
    refine ⟨_, _, rfl, whenRunning_run hs, fun j hj => ?_, ?_, ?_, ?_, ?_⟩
    · rw [Filters.get_put, if_neg hj]
    all_goals rw [Filters.get_put, if_pos rfl]; assumption
  · subst hr h1 h2
    refine ⟨fun e1 => ?_, fun e2 => ?_, fun e1 e2 => ?_, fun e1 => ?_, fun e2 => ?_⟩ <;> refine (whenRunning_run hs).trans ?_
    · congr 2
      simp only [State.filterWindow, State.settlePhases, Filter.settle_excursion e1, if_true, Bool.false_eq_true, if_false, phaseStep_one]
      split <;> simp [State.phaseChange, State.setFilters]
    · congr 2
      simp only [State.filterWindow, State.settlePhases, Filter.settle_excursion e2, if_true, Bool.false_eq_true, if_false, phaseStep_two]
      split <;> simp [State.phaseChange, State.setFilters]
    · congr 2
      simp only [State.filterWindow, State.settlePhases, Filter.settle_excursion e1, Filter.settle_excursion e2, if_true, phaseStep_both,
        State.phaseChange, State.tripUnreference, State.setFilters, unreference_eq]
      rfl
    · congr 2
      simp only [State.filterWindow, State.settlePhases, Filter.settle_idle e1, ite_self, Bool.false_eq_true, if_false, phaseStep_same]
      exact s.setCrane_self c
    · congr 2
      simp only [State.filterWindow, State.settlePhases, Filter.settle_idle e2, ite_self, Bool.false_eq_true, if_false, phaseStep_same]
      exact s.setCrane_self c
  · subst hr
    have hexec : ∀ act, s.filterWindow c w = s.settleEdge c i act →
        exec (.filterWindow c w) s = .next (finish s (if g.filtered = false then act t else t)) := fun act h => by
      rw [← settleEdge_eq hg he ht, ← h]
      exact whenRunning_run hs
    have hhome : i = .home → exec (.filterWindow c w) s = .next (finish s (if g.filtered = false then t.captureHome c else t)) := by
      rcases hw with ⟨rfl, rfl⟩ | ⟨rfl, rfl⟩
      · exact fun _ => hexec (fun t => t.captureHome c) rfl
      · exact fun h => EncInput.noConfusion h
    have hindex : i = .index → exec (.filterWindow c w) s = .next (finish s (if g.filtered = false then t.indexEdge c else t)) := by
      rcases hw with ⟨rfl, rfl⟩ | ⟨rfl, rfl⟩
      · exact fun h => EncInput.noConfusion h
      · exact fun _ => hexec (fun t => t.indexEdge c) rfl
    have hrec : t.crane c = { s.crane c with filters := (t.crane c).filters } := by simp [ht]
    have hset : t.craneSettings c = s.craneSettings c := by simp [ht]
    refine ⟨fun hf => ?_, fun hf => ⟨fun hi => ?_, fun hi => ?_⟩⟩
    · rcases hw with ⟨hi, -⟩ | ⟨hi, -⟩
      · rw [hhome hi, if_neg (by simp [hf])]
      · rw [hindex hi, if_neg (by simp [hf])]
    · refine ⟨t.captureHome c, by rw [hhome hi, if_pos hf], ?_⟩
      subst ht
      simp [captureHome_eq, CraneRec.tripAllows, CraneRec.keepaliveRunning]
    · rw [hindex hi, if_pos hf]
      have href : (t.crane c).ref = (s.crane c).ref := by rw [hrec]
      have hctr : (t.crane c).counter = (s.crane c).counter := by rw [hrec]
      refine ⟨fun hn => ?_, fun q hq hph => ?_, fun q a cpr d hq hph hcpr hpos hd => ?_⟩
      · simp only [State.indexEdge, href, hn]
      · simp only [State.indexEdge, href, hq, hph, hctr]
      · have hedge : t.indexEdge c = if 4 < d ∧ (d ≤ ((cpr / 2 : Nat) : Int) ∨ d < (cpr : Int) - 4) then t.tripUnreference c .slip else t := by
          simp only [State.indexEdge, href, hq, hph, hctr, hset, ← hcpr, indexDeviation_slips hpos hd]
        rw [hedge]
        refine ⟨fun h => ?_, fun h => ?_⟩
        · rw [if_neg (by omega)]
        · rw [if_pos h, State.tripUnreference]
          congr 3
          subst ht
          simp [unreference_eq, CraneRec.tripAllows, CraneRec.keepaliveRunning]

end Sys2Proof.Machine
end
/-! # The position sample -/
section
namespace Sys2Proof.Machine

/-! ## Trips latched one after another (R102, R103) -/

/-- The record with a cause latched, where it is not latched already (R102). -/
def CraneRec.addTrip (r : CraneRec) (x : TripCause) : CraneRec := if r.hasTrip x then r else r.withTrip x

/-- The record with several causes latched in turn. -/
def CraneRec.trips (r : CraneRec) (l : List TripCause) : CraneRec := l.foldl CraneRec.addTrip r

theorem addTrip_sound {r : CraneRec} (h : TripSound r) (x : TripCause) : TripSound (r.addTrip x) := by
  unfold CraneRec.addTrip
  split
  · exact h
  · exact h.withTrip x

theorem trips_sound {r : CraneRec} (h : TripSound r) (l : List TripCause) : TripSound (r.trips l) := by
  induction l generalizing r with
  | nil => exact h
  | cons x l ih => exact ih (addTrip_sound h x)

theorem mem_withTrip {r : CraneRec} (h : TripSound r) (x y : TripCause) :
    y ∈ (r.withTrip x).tripCauses ↔ y = x ∨ y ∈ r.tripCauses := by
  cases hl : r.tripLatched with
  | true => simp [CraneRec.withTrip, hl, mem_addCause]
  | false => simp [CraneRec.withTrip, hl, (h.clear hl).2]

theorem mem_addTrip {r : CraneRec} (h : TripSound r) (x y : TripCause) :
    y ∈ (r.addTrip x).tripCauses ↔ y = x ∨ y ∈ r.tripCauses := by
  unfold CraneRec.addTrip
  split
  · next ht =>
    have hx := (hasTrip_iff h x).mp ht
    exact ⟨.inr, fun hy => hy.elim (fun e => e ▸ hx) id⟩
  · exact mem_withTrip h x y

theorem mem_trips {r : CraneRec} (h : TripSound r) (l : List TripCause) (y : TripCause) :
    y ∈ (r.trips l).tripCauses ↔ y ∈ l ∨ y ∈ r.tripCauses := by
  induction l generalizing r with
  | nil => simp [CraneRec.trips]
  | cons x l ih =>
    rw [CraneRec.trips, List.foldl_cons, ← CraneRec.trips, ih (addTrip_sound h x), mem_addTrip h, List.mem_cons]
    tauto

theorem trips_old {r : CraneRec} (h : TripSound r) {l : List TripCause} (hl : ∀ y ∈ l, y ∈ r.tripCauses) : r.trips l = r := by
  induction l with
  | nil => rfl
  | cons x l ih =>
    have hx : r.addTrip x = r := if_pos ((hasTrip_iff h x).mpr (hl x List.mem_cons_self))
    rw [CraneRec.trips, List.foldl_cons, hx]
    exact ih fun y hy => hl y (List.mem_cons_of_mem _ hy)

/-- The cause set stands exactly where every cause was in it. -/
theorem trips_causes_iff {r : CraneRec} (h : TripSound r) (l : List TripCause) :
    (r.trips l).tripCauses = r.tripCauses ↔ ∀ y ∈ l, y ∈ r.tripCauses := by
  refine ⟨fun e y hy => ?_, fun hl => by rw [trips_old h hl]⟩
  rw [← e]
  exact (mem_trips h l y).mpr (.inl hy)

theorem trips_latched_first {r : CraneRec} (h : r.tripLatched = true) (l : List TripCause) :
    (r.trips l).tripLatched = true ∧ (r.trips l).tripFirst = r.tripFirst := by
  induction l generalizing r with
  | nil => exact ⟨h, rfl⟩
  | cons x l ih =>
    have hx : (r.addTrip x).tripLatched = true ∧ (r.addTrip x).tripFirst = r.tripFirst := by
      unfold CraneRec.addTrip
      split
      · exact ⟨h, rfl⟩
      · exact ⟨rfl, by simp [CraneRec.withTrip, h]⟩
    obtain ⟨h1, h2⟩ := ih hx.1
    exact ⟨h1, h2.trans hx.2⟩

/-- On a clear latch the first cause is the first found (R102). -/
theorem trips_clear_first {r : CraneRec} (hs : TripSound r) (h : r.tripLatched = false) (l : List TripCause) :
    (r.trips l).tripFirst = l.head? := by
  cases l with
  | nil => exact (hs.clear h).1
  | cons x l =>
    have hx : r.addTrip x = r.withTrip x := if_neg (by simp [CraneRec.hasTrip, h])
    rw [CraneRec.trips, List.foldl_cons, hx, ← CraneRec.trips, (trips_latched_first rfl l).2]
    simp [CraneRec.withTrip, h]

/-- A cause other than FIRE that is gained takes creep permission away (R103). -/
theorem trips_creep {r : CraneRec} (h : TripSound r) {l : List TripCause} (hfire : .fire ∉ l) :
    (r.trips l).creep = (r.creep && decide ((r.trips l).tripCauses = r.tripCauses)) := by
  have hkeeps : ∀ (l : List TripCause) (a : CraneRec), TripSound a → .fire ∉ l → (a.trips l).creep = true →
      ∀ y ∈ l, y ∈ a.tripCauses := by
    intro l
    induction l with
    | nil => simp
    | cons x l ih =>
      intro a ha hf hc
      rw [List.mem_cons, not_or] at hf
      have hrest := ih (a.addTrip x) (addTrip_sound ha x) hf.2 hc
      by_cases hx : a.hasTrip x = true
      · have hadd : a.addTrip x = a := if_pos hx
        rw [hadd] at hrest
        simpa [(hasTrip_iff ha x).mp hx] using hrest
      · exfalso
        have hsame := trips_old (addTrip_sound ha x) hrest
        rw [CraneRec.trips, List.foldl_cons, ← CraneRec.trips, hsame, CraneRec.addTrip, if_neg hx] at hc
        simp [CraneRec.withTrip, Ne.symm hf.1] at hc
  by_cases hall : ∀ y ∈ l, y ∈ r.tripCauses
  · simp [trips_old h hall]
  · rw [show (r.trips l).creep = false from Bool.eq_false_iff.mpr fun hc => hall (hkeeps l r h hfire hc),
      show decide ((r.trips l).tripCauses = r.tripCauses) = false from decide_eq_false fun e => hall ((trips_causes_iff h l).mp e),
      Bool.and_false]

/-- The record with another record's trip fields and creep permission. -/
def CraneRec.tripsFrom (r a : CraneRec) : CraneRec :=
  { r with tripLatched := a.tripLatched, tripFirst := a.tripFirst, tripCauses := a.tripCauses, creep := a.creep }

theorem tripsFrom_self (r : CraneRec) : r.tripsFrom r = r := rfl

theorem tripsFrom_addTrip (r a : CraneRec) (x : TripCause) : (r.tripsFrom a).addTrip x = r.tripsFrom (a.addTrip x) := by
  have hhas : (r.tripsFrom a).hasTrip x = a.hasTrip x := rfl
  unfold CraneRec.addTrip
  rw [hhas]
  split <;> rfl

theorem TripSound.tripsFrom {a : CraneRec} (h : TripSound a) (r : CraneRec) : TripSound (r.tripsFrom a) where
  clear := h.clear
  latched := h.latched
  rising := h.rising

/-! ## TRIP notices coalesce (R199) -/

/-- A notice of the same kind and subject replaces the one just offered. -/
theorem offer_offer (q : LinkPort) {n m : Notice} (h : ∀ k, m.sameAs k = n.sameAs k) (hn : n.sameAs n = true) :
    (q.offer n).offer m = q.offer m := by
  have hs : m.sameAs = n.sameAs := funext h
  unfold LinkPort.offer
  rw [hs]
  by_cases hany : q.queue.any n.sameAs = true
  · have hmap : (q.queue.map fun k => if n.sameAs k then n else k).any n.sameAs = true := by
      obtain ⟨k, hk, hsame⟩ := List.any_eq_true.mp hany
      exact List.any_eq_true.mpr ⟨n, List.mem_map.mpr ⟨k, hk, by simp [hsame]⟩, hn⟩
    simp only [hany, hmap, if_true, List.map_map]
    congr 1
    refine List.map_congr_left fun k _ => ?_
    by_cases hk : n.sameAs k = true <;> simp [hk, hn]
  · rw [Bool.not_eq_true] at hany
    by_cases hlen : q.queue.length < noticeCapacity
    · have hid : q.queue.map (fun k => if n.sameAs k then m else k) = q.queue :=
        (List.map_congr_left fun k hk => if_neg (List.any_eq_false.mp hany k hk)).trans (List.map_id' _)
      simp [hany, hlen, hn, hid]
    · simp [hany, hlen]

theorem trip_sameAs (c : Crane) (f f' : Option TripCause) (l l' : List TripCause) (b b' : Bool) (k : Notice) :
    (Notice.trip c f l b).sameAs k = (Notice.trip c f' l' b').sameAs k := by
  rw [Bool.eq_iff_iff, sameAs_iff, sameAs_iff]
  rfl

theorem raise_raise (s : State) (p : Port) {n m : Notice} (h : ∀ k, m.sameAs k = n.sameAs k) (hn : n.sameAs n = true) :
    (s.raise p n).raise p m = s.raise p m := by
  simp [State.raise, offer_offer _ h hn]

theorem setPort_comm (s : State) {p q : Port} (h : p ≠ q) (a b : LinkPort) :
    (s.setPort p a).setPort q b = (s.setPort q b).setPort p a := by
  cases p <;> cases q <;> first | rfl | exact absurd rfl h

theorem raise_comm (s : State) {p q : Port} (h : p ≠ q) (n m : Notice) :
    (s.raise p n).raise q m = (s.raise q m).raise p n := by
  simp only [State.raise, State.setPort_port_ne _ _ _ _ h, State.setPort_port_ne _ _ _ _ h.symm]
  exact setPort_comm s h _ _

theorem raise_setCrane (s : State) (p : Port) (n : Notice) (c : Crane) (r : CraneRec) :
    (s.raise p n).setCrane c r = (s.setCrane c r).raise p n := by
  cases p <;> cases c <;> rfl

theorem portOf_ne_S (c : Crane) : portOf c ≠ .S := by cases c <;> decide

/-! ## The state while a sample goes on -/

/-- TRIP of crane X with a record, raised to its own port and port S (R102). -/
def State.raiseTrip (s : State) (c : Crane) (r : CraneRec) : State :=
  (s.raise (portOf c) (.trip c r.tripFirst r.tripCauses r.ref.isSome)).raise .S (.trip c r.tripFirst r.tripCauses r.ref.isSome)

/-- The state with crane X's new record, which TRIP has told where its cause set differs from the old record's. -/
def State.sampled (s : State) (c : Crane) (r : CraneRec) : State :=
  if r.tripCauses = (s.crane c).tripCauses then s.setCrane c r else (s.setCrane c r).raiseTrip c r

theorem raiseTrip_crane (s : State) (c x : Crane) (r : CraneRec) : (s.raiseTrip c r).crane x = s.crane x := by
  simp [State.raiseTrip]

theorem raiseTrip_setCrane (s : State) (c : Crane) (r a : CraneRec) : (s.raiseTrip c r).setCrane c a = (s.setCrane c a).raiseTrip c r := by
  simp only [State.raiseTrip, raise_setCrane]

theorem raiseTrip_again (s : State) (c : Crane) (r a : CraneRec) : (s.raiseTrip c r).raiseTrip c a = s.raiseTrip c a := by
  have hself : ∀ f l b, (Notice.trip c f l b).sameAs (.trip c f l b) = true := fun f l b => (sameAs_iff _ _).mpr ⟨rfl, rfl⟩
  unfold State.raiseTrip
  rw [← raise_comm _ (portOf_ne_S c), raise_raise _ _ (trip_sameAs c _ _ _ _ _ _) (hself ..),
    raise_raise _ _ (trip_sameAs c _ _ _ _ _ _) (hself ..)]

theorem sampled_crane (s : State) (c : Crane) (r : CraneRec) : (s.sampled c r).crane c = r := by
  unfold State.sampled
  split
  · exact State.setCrane_crane_same ..
  · rw [raiseTrip_crane, State.setCrane_crane_same]

/-- What neither the ports nor the crane records hold stands. -/
theorem sampled_leaves {β : Type} {g : State → β} (hport : ∀ u p q, g (u.setPort p q) = g u)
    (hcrane : ∀ u c r, g (u.setCrane c r) = g u) (s : State) (c : Crane) (r : CraneRec) : g (s.sampled c r) = g s := by
  unfold State.sampled State.raiseTrip State.raise
  split
  · rw [hcrane]
  · rw [hport, hport, hcrane]

theorem sampled_setCrane {s : State} {c : Crane} {r a : CraneRec}
    (h : a.tripFirst = r.tripFirst ∧ a.tripCauses = r.tripCauses ∧ a.ref.isSome = r.ref.isSome) :
    (s.sampled c r).setCrane c a = s.sampled c a := by
  obtain ⟨h1, h2, h3⟩ := h
  unfold State.sampled
  rw [h2]
  split
  · exact State.setCrane_setCrane ..
  · rw [raiseTrip_setCrane, State.setCrane_setCrane, State.raiseTrip, State.raiseTrip, h1, h2, h3]

/-- A trip latched in the course of a sample. -/
theorem sampled_latchTrip {s : State} {c : Crane} {r : CraneRec} (hr : TripSound r)
    (hsub : ∀ y ∈ (s.crane c).tripCauses, y ∈ r.tripCauses) (x : TripCause) :
    ∃ v, (s.sampled c r).latchTrip c x = s.sampled c { r.addTrip x with permit := v } := by
  by_cases hx : r.hasTrip x = true
  · refine ⟨r.permit, ?_⟩
    rw [latchTrip_same (by rw [sampled_crane]; exact hx), CraneRec.addTrip, if_pos hx]
  · have hadd : r.addTrip x = r.withTrip x := if_neg hx
    have hnew : ∀ v, (s.sampled c r).setCrane c { r.withTrip x with permit := v } =
        if r.tripCauses = (s.crane c).tripCauses then s.setCrane c { r.withTrip x with permit := v }
        else (s.setCrane c { r.withTrip x with permit := v }).raiseTrip c r := fun v => by
      unfold State.sampled
      split
      · exact State.setCrane_setCrane ..
      · rw [raiseTrip_setCrane, State.setCrane_setCrane]
    refine ⟨((s.sampled c r).tripped c x).permit, ?_⟩
    rw [latchTrip_new (by rw [sampled_crane]; exact Bool.eq_false_iff.mpr hx), hadd]
    have hrec : (s.sampled c r).tripped c x = { r.withTrip x with permit := ((s.sampled c r).tripped c x).permit } := by
      simp [State.tripped, sampled_crane]
    generalize ((s.sampled c r).tripped c x).permit = v at hrec
    have hchanged : (r.withTrip x).tripCauses ≠ (s.crane c).tripCauses := fun e => by
      have hmem : x ∈ (s.crane c).tripCauses := e ▸ (mem_withTrip hr x x).mpr (.inl rfl)
      exact hx ((hasTrip_iff hr x).mpr (hsub x hmem))
    have hsampled : s.sampled c { r.withTrip x with permit := v } =
        (s.setCrane c { r.withTrip x with permit := v }).raiseTrip c { r.withTrip x with permit := v } := if_neg hchanged
    rw [hsampled, hrec]
    show ((s.sampled c r).setCrane c { r.withTrip x with permit := v }).raiseTrip c { r.withTrip x with permit := v } = _
    rw [hnew]
    split
    · rfl
    · exact raiseTrip_again ..

end Sys2Proof.Machine
end
/-! # The steps of a position sample -/
section
namespace Sys2Proof.Machine

/-! ## The steps of a sample (R95 to R101) -/

/-- The position of R95. -/
theorem positionOf_eq (counter nHome : Counter) (q : CraneSettings) :
    positionOf counter nHome q =
      (q.home : Int) + (if 0 ≤ (counter - nHome).toInt then 1 else -1) *
        (((2 * ((counter - nHome).toInt * q.gain).natAbs + 65536) / 131072 : Nat) : Int) := by
  unfold positionOf divNearest
  generalize (counter - nHome).toInt = d
  congr 1
  by_cases hd : 0 ≤ d
  · have hn : 0 ≤ d * (q.gain : Int) := by positivity
    simp [hd, hn]
  · by_cases hg : q.gain = 0
    · simp [hg]
    · have hn : ¬0 ≤ d * (q.gain : Int) := by
        have : (0 : Int) < q.gain := by omega
        nlinarith
      simp [hd, hn]

/-- The causes found by a sample, in the order of its checks (R101). -/
def foundTrips (lost fast outside barred : Bool) : List TripCause :=
  (if lost then [.positionRange] else []) ++ (if fast then [.overspeed] else []) ++ (if outside then [.envelope] else []) ++
    (if barred then [.barrier] else [])

/-- The record with a drive permit. -/
def CraneRec.withPermit (r : CraneRec) (v : Bool) : CraneRec := { r with permit := v }

theorem withPermit_withPermit (r : CraneRec) (v w : Bool) : (r.withPermit v).withPermit w = r.withPermit w := rfl

/-- A check of a sample: the cause is latched where the check fails. -/
theorem sampled_check {s : State} {c : Crane} {ρ : CraneRec} {l l' : List TripCause} (h : TripSound (s.crane c)) (b : Bool)
    (x : TripCause) (hl : l' = l ++ if b then [x] else []) :
    ∃ v, (if b then (s.sampled c (ρ.tripsFrom ((s.crane c).trips l))).latchTrip c x
        else s.sampled c (ρ.tripsFrom ((s.crane c).trips l))) =
      s.sampled c ((ρ.withPermit v).tripsFrom ((s.crane c).trips l')) := by
  subst hl
  cases b with
  | false =>
    refine ⟨ρ.permit, ?_⟩
    simp only [Bool.false_eq_true, if_false, List.append_nil]
    rfl
  | true =>
    obtain ⟨v, hv⟩ := sampled_latchTrip (s := s) (c := c) ((trips_sound h l).tripsFrom ρ) (fun y hy => (mem_trips h l y).mpr (.inr hy)) x
    refine ⟨v, ?_⟩
    rw [if_pos rfl, hv, tripsFrom_addTrip]
    simp [CraneRec.trips, CraneRec.tripsFrom, CraneRec.withPermit]

/-- The position is out of the rail's range (R95). -/
def State.positionLost (s : State) (c : Crane) (x : Int) : Bool := decide ((s.crane c).ref ≠ none ∧ (x < -2000 ∨ 102799 < x))

/-- The reference after the position's step (R95). -/
def State.sampledRef (s : State) (c : Crane) (x : Int) : Option Reference :=
  if s.positionLost c x then none else (s.crane c).ref.map fun a => { a with x := x }

theorem samplePosition_eq {s : State} {c : Crane} (h : TripSound (s.crane c)) {x : Int}
    (hx : x = positionOf (s.crane c).counter ((s.crane c).ref.elim 0 Reference.nHome) (s.craneSettings c)) :
    ∃ v, s.samplePosition c =
      s.sampled c ({ s.crane c with ref := s.sampledRef c x, permit := v }.tripsFrom
        ((s.crane c).trips (foundTrips (s.positionLost c x) false false false))) := by
  have hsame : ∀ a : CraneRec, a.tripCauses = (s.crane c).tripCauses → s.sampled c a = s.setCrane c a := fun a ha => if_pos ha
  unfold State.samplePosition State.sampledRef State.positionLost
  cases hr : (s.crane c).ref with
  | none =>
    refine ⟨(s.crane c).permit, ?_⟩
    simp only [ne_eq, not_true, false_and, decide_false, Bool.false_eq_true, if_false, Option.map_none]
    refine Eq.trans ?_ (hsame _ (by rfl)).symm
    have hself : ({ s.crane c with ref := none, permit := (s.crane c).permit }.tripsFrom ((s.crane c).trips (foundTrips false false false false))) = s.crane c := by
      rw [← hr]
      rfl
    rw [hself, State.setCrane_self]
  | some r =>
    simp only [hr, Option.elim_some] at hx
    simp only [← hx]
    by_cases hlost : x < -2000 ∨ 102799 < x
    · simp only [hlost, if_true, State.tripUnreference, ne_eq, reduceCtorEq, not_false_iff, true_and, decide_true]
      have hunref : s.unreference c = s.sampled c ({ s.crane c with ref := none, permit := (s.setCrane c { s.crane c with ref := none }).permitHolds c }) := by
        refine Eq.trans ?_ (hsame _ (by rfl)).symm
        rw [State.unreference, refreshPermit_eq]
      rw [hunref]
      obtain ⟨v, hv⟩ := sampled_check (s := s) (c := c) (ρ := { s.crane c with ref := none, permit := (s.setCrane c { s.crane c with ref := none }).permitHolds c })
        (l := []) h true .positionRange (l' := foundTrips true false false false) rfl
      exact ⟨v, hv⟩
    · refine ⟨(s.crane c).permit, ?_⟩
      simp only [hlost, if_false, and_false, decide_false, Bool.false_eq_true, Option.map_some]
      refine Eq.trans ?_ (hsame _ (by rfl)).symm
      rfl

/-- The envelope of a sample (R99, R100). -/
def State.sampledEnvelope (s : State) (c : Crane) (x d : Int) : Nat × Nat :=
  match s.sampledRef c x with
  | some a => envelopeOf a.x (directionOf d) (marginOf (speedOf d (s.craneSettings c).gain) (s.craneSettings c)) (s.craneSettings c).mFixed
  | none => unreferencedEnvelope c (s.holdingEnds c)

/-- The change of the counter over eight samples (R96). -/
def CraneRec.change (r : CraneRec) : Int := (r.counter - r.history.headD 0).toInt

/-- Crane X's record after the position's and the speed's steps at position `x`, but for the trips and the permit (R95, R96). -/
def State.speedRec (s : State) (c : Crane) (x : Int) : CraneRec :=
  { s.crane c with
    ref := s.sampledRef c x
    dN8 := (s.crane c).change
    history := (s.crane c).history.drop 1 ++ [(s.crane c).counter]
    speed := speedOf (s.crane c).change (s.craneSettings c).gain
    direction := directionOf (s.crane c).change }

/-- Crane X's record with what the sample at position `x` computes, but for the trips and the permit (R95 to R100). -/
def State.sampleRec (s : State) (c : Crane) (x : Int) : CraneRec :=
  { s.speedRec c x with
    margin := marginOf (speedOf (s.crane c).change (s.craneSettings c).gain) (s.craneSettings c)
    envLo := (s.sampledEnvelope c x (s.crane c).change).1
    envHi := (s.sampledEnvelope c x (s.crane c).change).2
    touchFirst := (s.sampledEnvelope c x (s.crane c).change).1 / 2400
    touchLast := (s.sampledEnvelope c x (s.crane c).change).2 / 2400 }

/-- The speed is above the limit (R97). -/
def State.sampledFast (s : State) (c : Crane) (x : Int) : Bool :=
  decide ((if (s.sampledRef c x).isSome ∧ ((s.crane c).trips (foundTrips (s.positionLost c x) false false false)).creep = false
    then (s.craneSettings c).vMax * 11 / 10 else (s.craneSettings c).creepMax) < speedOf (s.crane c).change (s.craneSettings c).gain)

/-- The causes found by the sample at position `x` (R101). -/
def State.sampledTrips (s : State) (c : Crane) (x : Int) : List TripCause :=
  foundTrips (s.positionLost c x) (s.sampledFast c x) (!(s.setCrane c (s.sampleRec c x)).touchedHeld c)
    ((s.setCrane c (s.sampleRec c x)).touchedBarred c)

@[simp] theorem sampled_craneSettings (s : State) (c : Crane) (r : CraneRec) (x : Crane) :
    (s.sampled c r).craneSettings x = s.craneSettings x := sampled_leaves (g := fun u => u.craneSettings x) (by simp) (by simp) s c r

@[simp] theorem sampled_seg (s : State) (c : Crane) (r : CraneRec) (n : Nat) : (s.sampled c r).seg n = s.seg n :=
  sampled_leaves (g := fun u => u.seg n) (by simp) (by simp) s c r

@[simp] theorem sampled_shutter (s : State) (c : Crane) (r : CraneRec) (n : Nat) : (s.sampled c r).shutter n = s.shutter n :=
  sampled_leaves (g := fun u => u.shutter n) (by simp) (by simp) s c r

theorem sampled_holdingEnds (s : State) (c : Crane) (r : CraneRec) (x : Crane) : (s.sampled c r).holdingEnds x = s.holdingEnds x := by
  simp [State.holdingEnds, State.holding]

/-- The segments touched and the shutters spanned are read from the record, the segments and the shutters alone. -/
theorem touchedHeld_congr {s t : State} {c : Crane} (hf : (t.crane c).touchFirst = (s.crane c).touchFirst)
    (hl : (t.crane c).touchLast = (s.crane c).touchLast) (hseg : ∀ n, t.seg n = s.seg n) : t.touchedHeld c = s.touchedHeld c := by
  rw [Bool.eq_iff_iff, touchedHeld_iff, touchedHeld_iff, hf, hl]
  simp only [hseg]

theorem touchedBarred_congr {s t : State} {c : Crane} (hf : (t.crane c).touchFirst = (s.crane c).touchFirst)
    (hl : (t.crane c).touchLast = (s.crane c).touchLast) (hsh : ∀ k, t.shutter k = s.shutter k) :
    t.touchedBarred c = s.touchedBarred c := by
  rw [Bool.eq_iff_iff, touchedBarred_iff, touchedBarred_iff, hf, hl]
  simp only [hsh]

theorem sampleSpeed_sampled (s : State) (c : Crane) (r : CraneRec) :
    (s.sampled c r).sampleSpeed c = s.sampled c
      { r with
        dN8 := r.change
        history := r.history.drop 1 ++ [r.counter]
        speed := speedOf r.change (s.craneSettings c).gain
        direction := directionOf r.change } := by
  rw [State.sampleSpeed, sampled_crane, sampled_craneSettings]
  exact sampled_setCrane ⟨rfl, rfl, rfl⟩

theorem sampleMargin_sampled (s : State) (c : Crane) (r : CraneRec) :
    (s.sampled c r).sampleMargin c = s.sampled c { r with margin := marginOf r.speed (s.craneSettings c) } := by
  rw [State.sampleMargin, sampled_crane, sampled_craneSettings]
  exact sampled_setCrane ⟨rfl, rfl, rfl⟩

/-- The envelope of a crane's record (R99, R100). -/
def State.envelopeFor (s : State) (c : Crane) (r : CraneRec) : Nat × Nat :=
  match r.ref with
  | some a => envelopeOf a.x r.direction r.margin (s.craneSettings c).mFixed
  | none => unreferencedEnvelope c (s.holdingEnds c)

theorem sampleEnvelope_sampled (s : State) (c : Crane) (r : CraneRec) :
    (s.sampled c r).sampleEnvelope c = s.sampled c
      { r with
        envLo := (s.envelopeFor c r).1, envHi := (s.envelopeFor c r).2
        touchFirst := (s.envelopeFor c r).1 / 2400, touchLast := (s.envelopeFor c r).2 / 2400 } := by
  have he : (s.sampled c r).envelope c = s.envelopeFor c r := by
    rw [State.envelope, sampled_crane, sampled_craneSettings, sampled_holdingEnds]
    rfl
  rw [State.sampleEnvelope, he, sampled_crane]
  exact sampled_setCrane ⟨rfl, rfl, rfl⟩

/-- A sample up to its hand-off: the record of R95 to R100 with the trips found, told by TRIP, and the permit evaluated (R101). -/
theorem positionSample_eq {s : State} {c : Crane} (h : TripSound (s.crane c)) {x : Int}
    (hx : x = positionOf (s.crane c).counter ((s.crane c).ref.elim 0 Reference.nHome) (s.craneSettings c)) :
    ∃ t v, s.positionSample c = t.handOff c ∧
      t = s.sampled c (((s.sampleRec c x).withPermit v).tripsFrom ((s.crane c).trips (s.sampledTrips c x))) ∧
      v = t.permitHolds c := by
  obtain ⟨v1, h1⟩ := samplePosition_eq h hx
  have h2 : (s.samplePosition c).sampleSpeed c = s.sampled c
      (((s.speedRec c x).withPermit v1).tripsFrom ((s.crane c).trips (foundTrips (s.positionLost c x) false false false))) := by
    rw [h1, sampleSpeed_sampled]
    rfl
  obtain ⟨v3, h3⟩ := sampled_check (ρ := (s.speedRec c x).withPermit v1) (l := foundTrips (s.positionLost c x) false false false)
    (l' := foundTrips (s.positionLost c x) (s.sampledFast c x) false false) h (s.sampledFast c x) .overspeed (by simp [foundTrips])
  have h4 : ((s.samplePosition c).sampleSpeed c).sampleLimit c = s.sampled c
      (((s.speedRec c x).withPermit v3).tripsFrom
        ((s.crane c).trips (foundTrips (s.positionLost c x) (s.sampledFast c x) false false))) := by
    refine Eq.trans ?_ h3
    rw [h2, State.sampleLimit, State.speedLimit, sampled_crane, sampled_craneSettings, State.sampledFast]
    simp only [decide_eq_true_eq]
    rfl
  have h5 : ((((s.samplePosition c).sampleSpeed c).sampleLimit c).sampleMargin c).sampleEnvelope c = s.sampled c
      (((s.sampleRec c x).withPermit v3).tripsFrom
        ((s.crane c).trips (foundTrips (s.positionLost c x) (s.sampledFast c x) false false))) := by
    rw [h4, sampleMargin_sampled, sampleEnvelope_sampled]
    rfl
  have hheld : ∀ v a, (s.sampled c (((s.sampleRec c x).withPermit v).tripsFrom a)).touchedHeld c =
      (s.setCrane c (s.sampleRec c x)).touchedHeld c := fun v a =>
    touchedHeld_congr (by rw [sampled_crane, State.setCrane_crane_same]; rfl) (by rw [sampled_crane, State.setCrane_crane_same]; rfl)
      (by simp)
  have hbarred : ∀ v a, (s.sampled c (((s.sampleRec c x).withPermit v).tripsFrom a)).touchedBarred c =
      (s.setCrane c (s.sampleRec c x)).touchedBarred c := fun v a =>
    touchedBarred_congr (by rw [sampled_crane, State.setCrane_crane_same]; rfl) (by rw [sampled_crane, State.setCrane_crane_same]; rfl)
      (by simp)
  obtain ⟨v6, h6⟩ := sampled_check (ρ := (s.sampleRec c x).withPermit v3) (l := foundTrips (s.positionLost c x) (s.sampledFast c x) false false)
    (l' := foundTrips (s.positionLost c x) (s.sampledFast c x) (!(s.setCrane c (s.sampleRec c x)).touchedHeld c) false) h
    (!(s.setCrane c (s.sampleRec c x)).touchedHeld c) .envelope (by simp [foundTrips])
  obtain ⟨v7, h7⟩ := sampled_check (ρ := (s.sampleRec c x).withPermit v6)
    (l := foundTrips (s.positionLost c x) (s.sampledFast c x) (!(s.setCrane c (s.sampleRec c x)).touchedHeld c) false)
    (l' := s.sampledTrips c x) h ((s.setCrane c (s.sampleRec c x)).touchedBarred c) .barrier (by simp [State.sampledTrips, foundTrips])
  rw [withPermit_withPermit] at h6 h7
  have h8 : (((((s.samplePosition c).sampleSpeed c).sampleLimit c).sampleMargin c).sampleEnvelope c).sampleChecks c =
      s.sampled c (((s.sampleRec c x).withPermit v7).tripsFrom ((s.crane c).trips (s.sampledTrips c x))) := by
    have hfirst : ∀ u : State, u.touchedHeld c = (s.setCrane c (s.sampleRec c x)).touchedHeld c →
        (if u.touchedHeld c then u else u.latchTrip c .envelope) =
          if (!(s.setCrane c (s.sampleRec c x)).touchedHeld c) then u.latchTrip c .envelope else u := fun u hu => by
      rw [hu]
      cases (s.setCrane c (s.sampleRec c x)).touchedHeld c <;> rfl
    rw [h5, State.sampleChecks, hfirst _ (hheld _ _), h6, hbarred]
    exact h7
  have hpermit : ∀ u : State, (u.refreshPermit c).permitHolds c = u.permitHolds c := fun u => permitHolds_setPermit u c _
  refine ⟨_, _, rfl, ?_, (hpermit _).symm⟩
  rw [h8, State.refreshPermit, sampled_crane]
  exact sampled_setCrane ⟨rfl, rfl, rfl⟩

/-! ## What the sample leaves (R101, R102) -/

theorem still_raiseTrip (s : State) (c : Crane) (r : CraneRec) : (s.raiseTrip c r).still = s.still := by simp [State.raiseTrip]

theorem sampled_restored (s : State) (c : Crane) (r : CraneRec) : ((s.sampled c r).setCrane c (s.crane c)).still = s.still := by
  unfold State.sampled
  split
  · rw [State.setCrane_setCrane, State.setCrane_self]
  · rw [raiseTrip_setCrane, still_raiseTrip, State.setCrane_setCrane, State.setCrane_self]

theorem sampled_port (s : State) (c : Crane) (r : CraneRec) (y : Port) :
    (s.sampled c r).port y =
      if (y = portOf c ∨ y = .S) ∧ r.tripCauses ≠ (s.crane c).tripCauses then
        (s.port y).offer (.trip c r.tripFirst r.tripCauses r.ref.isSome)
      else s.port y := by
  unfold State.sampled
  by_cases hc : r.tripCauses = (s.crane c).tripCauses
  · simp [hc]
  · rw [if_neg hc]
    unfold State.raiseTrip
    by_cases hS : y = .S
    · subst hS
      rw [raise_port_same, raise_port_ne _ _ (portOf_ne_S c).symm, State.setCrane_port, if_pos ⟨.inr rfl, hc⟩]
    · rw [raise_port_ne _ _ hS]
      by_cases hy : y = portOf c
      · subst hy
        rw [raise_port_same, State.setCrane_port, if_pos ⟨.inl rfl, hc⟩]
      · rw [raise_port_ne _ _ hy, State.setCrane_port, if_neg fun h => h.1.elim hy hS]

theorem sampled_receivers (s : State) (c : Crane) (r : CraneRec) : SameReceivers (s.sampled c r) s := by
  intro y
  rw [sampled_port]
  split
  · exact (offer_kept ..).receiver
  · rfl

theorem mem_foundTrips (a b d e : Bool) (y : TripCause) :
    y ∈ foundTrips a b d e ↔
      y = .positionRange ∧ a = true ∨ y = .overspeed ∧ b = true ∨ y = .envelope ∧ d = true ∨ y = .barrier ∧ e = true := by
  simp only [foundTrips, List.mem_append, List.mem_ite_nil_right, List.mem_singleton, or_assoc, and_comm]

theorem latched_iff_causes {r : CraneRec} (h : TripSound r) : r.tripLatched = true ↔ r.tripCauses ≠ [] := by
  constructor
  · intro hl
    obtain ⟨x, -, hx⟩ := h.latched hl
    exact List.ne_nil_of_mem hx
  · intro hne
    by_contra hl
    exact hne (h.clear (by simpa using hl)).2

theorem clampRail_eq (x : Int) : (clampRail x : Int) = max 0 (min 100799 x) := by
  unfold clampRail railEnd
  split
  · omega
  · split <;> omega

/-- The envelope of a REFERENCED crane by the sign of its change (R99). -/
theorem envelopeOf_eq (x d m f : Int) :
    ((envelopeOf x (directionOf d) m f).1 : Int) = max 0 (min 100799 (x - 1100 - if d < 0 then m else f)) ∧
      ((envelopeOf x (directionOf d) m f).2 : Int) = max 0 (min 100799 (x + 1100 + if 0 < d then m else f)) := by
  unfold directionOf
  rcases lt_trichotomy d 0 with h | h | h
  · have h' : ¬0 < d := by omega
    simp only [h, h', if_true, if_false, envelopeOf, clampRail_eq, halfLength, and_self]
  · simp only [h, lt_irrefl, if_false, envelopeOf, clampRail_eq, halfLength, and_self]
  · have h' : ¬d < 0 := by omega
    simp only [h, h', if_true, if_false, envelopeOf, clampRail_eq, halfLength, and_self]

theorem sampledRef_some {s : State} {c : Crane} {x : Int} (h : s.sampledRef c x ≠ none) :
    s.positionLost c x = false ∧ ∃ a : Reference, s.sampledRef c x = some { a with x := x } := by
  unfold State.sampledRef at *
  cases hl : s.positionLost c x with
  | true => simp [hl] at h
  | false =>
    cases hr : (s.crane c).ref with
    | none => simp [hl, hr] at h
    | some a => exact ⟨rfl, a, by simp⟩

/-- The speed limit reads creep permission as it was before the sample: only a crane that is REFERENCED still reads it (R97). -/
theorem sampledFast_iff (s : State) (c : Crane) (x : Int) :
    s.sampledFast c x = true ↔
      (if s.sampledRef c x ≠ none ∧ (s.crane c).creep = false then (s.craneSettings c).vMax * 11 / 10 else (s.craneSettings c).creepMax) <
        speedOf (s.crane c).change (s.craneSettings c).gain := by
  rw [State.sampledFast, decide_eq_true_eq]
  cases h : s.sampledRef c x with
  | none => simp
  | some a =>
    rw [(sampledRef_some (by rw [h]; exact Option.some_ne_none a)).1]
    simp [foundTrips, CraneRec.trips]

/-! ## The hand-off (R101 step 5, R171, R176) -/

theorem touchSpans_iff (s : State) (c : Crane) (k : Nat) :
    s.touchSpans c k = true ↔ (s.crane c).touchFirst ≤ 10 * k + 10 ∧ 10 * k + 11 ≤ (s.crane c).touchLast := spans_iff ..

theorem straddles_iff (s : State) (c : Crane) (k : Nat) :
    s.straddles c k = true ↔ (s.seg (10 * k + 10)).holder = some c ∧ (s.seg (10 * k + 11)).holder = some c := by
  rw [State.straddles, Bool.and_eq_true, holds_eq_true, holds_eq_true]
  rfl

theorem forall_crane {P : Crane → Prop} : (∀ x, P x) ↔ P .A ∧ P .B :=
  ⟨fun h => ⟨h _, h _⟩, fun h x => by cases x <;> [exact h.1; exact h.2]⟩

/-- The clearance condition of a shutter (R176). -/
theorem clearanceHolds_iff (s : State) (k : Nat) :
    s.clearanceHolds k = true ↔
      (∀ x, ¬((s.crane x).touchFirst ≤ 10 * k + 10 ∧ 10 * k + 11 ≤ (s.crane x).touchLast)) ∧
        (((s.zone k).state = .clearing ∨ (s.zone (k + 1)).state = .clearing) →
          ∀ x, ¬((s.seg (10 * k + 10)).holder = some x ∧ (s.seg (10 * k + 11)).holder = some x)) := by
  simp only [forall_crane, ← touchSpans_iff, ← straddles_iff, State.clearanceHolds, Bool.and_eq_true, Bool.or_eq_true,
    Bool.not_eq_true', ← Bool.not_eq_true, beq_iff_eq, ← imp_iff_not_or]

theorem zoneTo_zone_ne (s : State) {z y : Nat} (x : ZoneState) (h : y ≠ z) : (s.zoneTo z x).zone y = s.zone y := by
  simp [State.zoneTo, State.raiseAll, State.raise, State.setZone_zone, h]

theorem obstruct_zone_ne (s : State) {z y : Nat} (h : y ≠ z) : (s.obstruct z).zone y = s.zone y := by
  unfold State.obstruct
  split
  · exact zoneTo_zone_ne s _ h
  · rfl

theorem handShutter_stays {s : State} {c : Crane} {k : Nat} (h : (s.shutter k).state ≠ .hold) : s.handShutter c k = s := if_neg h

theorem handShutter_clear {s : State} {c : Crane} {k : Nat} (h : (s.shutter k).state = .hold) (hc : s.clearanceHolds k = true) :
    s.handShutter c k = s.enterClosing k .clear := by simp [State.handShutter, h, hc]

theorem handShutter_barred {s : State} {c : Crane} {k : Nat} (h : (s.shutter k).state = .hold) (hc : s.clearanceHolds k = false) :
    s.handShutter c k = if s.touchSpans c k ∧ (s.crane c).dN8 = 0 then (s.obstruct k).obstruct (k + 1) else s := by
  simp [State.handShutter, h, hc]

/-- Settles O38: the sample as one record, and its hand-off shutter by shutter. -/
theorem positionSampleComputesTheEnvelope : Obligations.PositionSampleComputesTheEnvelope := by
  refine ⟨fun s c r q x d v m lost hs hr hq hsound hx hlost hd hv hm => ?_,
    fun s c k hk => ⟨handShutter_stays, fun hhold clear hclear => ⟨fun h => ?_, fun h => ⟨fun hspan t ht => ?_, fun hspan => ?_⟩⟩, fun u => rfl⟩⟩
  · subst hr hq
    rw [← positionOf_eq] at hx
    obtain ⟨t, pv, hsample, ht, hpv⟩ := positionSample_eq hsound hx
    have hcrane : t.crane c = ((s.sampleRec c x).withPermit pv).tripsFrom ((s.crane c).trips (s.sampledTrips c x)) := by
      rw [ht, sampled_crane]
    have hlost' : s.positionLost c x = lost := hlost.symm
    have hd' : (s.crane c).change = d := hd.symm
    have hv' : speedOf (s.crane c).change (s.craneSettings c).gain = v := by rw [hd', hv]; rfl
    have hm' : marginOf (speedOf (s.crane c).change (s.craneSettings c).gain) (s.craneSettings c) = m := by rw [hv', hm]; rfl
    refine ⟨t, t.crane c, ?_, rfl, ?_, ?_, ?_⟩
    · refine (whenRunning_run hs).trans ?_
      rw [hsample]
    · rw [ht]
      exact sampled_restored ..
    · rw [ht]
      exact sampled_receivers s c _
    have hts : TripSound (t.crane c) := by
      rw [hcrane]
      exact (trips_sound hsound _).tripsFrom _
    have hfire : .fire ∉ s.sampledTrips c x := by
      rw [State.sampledTrips, mem_foundTrips]
      simp
    have hfast := sampledFast_iff s c x
    refine ⟨?_, ?_, ?_, ?_, ?_, ?_, ?_, ?_, ?_, ?_, ?_, ?_, hts, latched_iff_causes hts, ?_, ?_, ?_, ?_, ?_⟩
    · rw [hcrane, ← hlost']
      rfl
    · rw [hcrane]
      rfl
    · rw [hcrane, ← hd']
      rfl
    · rw [hcrane]
      rfl
    · rw [hcrane, ← hv']
      rfl
    · rw [hcrane, ← hd']
      rfl
    · rw [hcrane, ← hm']
      rfl
    · intro href
      rw [hcrane] at href ⊢
      obtain ⟨-, a, ha⟩ := sampledRef_some (show s.sampledRef c x ≠ none from href)
      have he : s.sampledEnvelope c x (s.crane c).change = envelopeOf x (directionOf d) m (s.craneSettings c).mFixed := by
        rw [State.sampledEnvelope, ha, hm', hd']
      have := envelopeOf_eq x d m (s.craneSettings c).mFixed
      rw [← he] at this
      exact this
    · intro href
      rw [hcrane] at href ⊢
      have he : s.sampledEnvelope c x (s.crane c).change = unreferencedEnvelope c (s.holdingEnds c) := by
        rw [State.sampledEnvelope, show s.sampledRef c x = none from href]
      have hlo : ∀ e, s.sampledEnvelope c x (s.crane c).change = e →
          (((s.sampleRec c x).withPermit pv).tripsFrom ((s.crane c).trips (s.sampledTrips c x))).envLo = e.1 ∧
            (((s.sampleRec c x).withPermit pv).tripsFrom ((s.crane c).trips (s.sampledTrips c x))).envHi = e.2 := by
        rintro _ rfl
        exact ⟨rfl, rfl⟩
      obtain ⟨h1, h2⟩ := hlo _ he
      rw [h1, h2]
      refine ⟨?_, ?_⟩ <;> rintro rfl
      · cases s.holdingEnds .A <;> exact ⟨rfl, rfl⟩
      · cases s.holdingEnds .B <;> exact ⟨rfl, rfl⟩
    · rw [hcrane]
      rfl
    · rw [hcrane]
      rfl
    · rw [hcrane]
      have hout : (!(s.setCrane c (s.sampleRec c x)).touchedHeld c) = true ↔
          ∃ n, (s.sampleRec c x).touchFirst ≤ n ∧ n ≤ (s.sampleRec c x).touchLast ∧ (s.seg n).holder ≠ some c := by
        rw [Bool.not_eq_true', ← Bool.not_eq_true, touchedHeld_iff, State.setCrane_crane_same]
        simp only [State.setCrane_seg, not_forall, exists_prop]
      have hbar := touchedBarred_iff (s.setCrane c (s.sampleRec c x)) c
      simp only [State.setCrane_crane_same, State.setCrane_shutter] at hbar
      rw [hv'] at hfast
      refine ⟨_, _, _, hfast, hout, hbar, fun y => ?_, fun hl => ?_⟩
      · refine (mem_trips hsound _ y).trans ?_
        rw [State.sampledTrips, mem_foundTrips, hlost', or_comm]
      · have hfirst : (((s.sampleRec c x).withPermit pv).tripsFrom ((s.crane c).trips (s.sampledTrips c x))).tripFirst =
            (s.sampledTrips c x).head? := trips_clear_first hsound hl _
        rw [hfirst, State.sampledTrips, hlost']
        refine ⟨fun h1 => ?_, fun h1 h2 => ?_, fun h1 h2 h3 => ?_, fun h1 h2 h3 h4 => ?_⟩
        · simp [foundTrips, h1]
        · simp [foundTrips, h1, h2]
        · simp only [foundTrips, h1, h2, h3]
          rfl
        · simp only [foundTrips, h1, h2, h3, h4]
          rfl
    · intro hl
      rw [hcrane]
      exact (trips_latched_first hl _).2
    · rw [← hpv, hcrane]
      rfl
    · intro y
      rw [hcrane, ht]
      exact sampled_port s c _ y
    · rw [hcrane]
      rfl
    · rw [hcrane]
      exact trips_creep hsound hfire
  · rw [handShutter_clear hhold ((clearanceHolds_iff s k).mpr (hclear.mp h))]
  · rw [handShutter_barred hhold (by rw [← Bool.not_eq_true, clearanceHolds_iff, ← hclear]; exact h), if_pos ⟨(touchSpans_iff ..).mpr ⟨hspan.1, hspan.2.1⟩, hspan.2.2⟩]
    have htt : s.obstruct k = t := ht.symm
    rw [State.obstruct, obstruct_zone_ne s (by omega), htt]
  · rw [handShutter_barred hhold (by rw [← Bool.not_eq_true, clearanceHolds_iff, ← hclear]; exact h), if_neg]
    rw [touchSpans_iff, and_assoc]
    exact hspan

end Sys2Proof.Machine
end

/-! # FETCH (O39), the desk requests (O40), RELBAY and auto-stow (O41) -/

section

namespace Sys2Proof.Machine

/-! ## Lists of compartments -/

/-- R128's first check on a list whose first repeated entry is `i`, named before among `seen` or in the list (log 15). -/
theorem firstRepeatFrom_repeats {before after seen : List Nat} {i : Nat} (hn : before.Nodup) (hd : ∀ j ∈ before, j ∉ seen)
    (hi : i ∈ before ∨ i ∈ seen) : firstRepeatFrom seen (before ++ i :: after) = some i := by
  induction before generalizing seen with
  | nil => simp [firstRepeatFrom, hi.resolve_left (List.not_mem_nil)]
  | cons a rest ih =>
    obtain ⟨ha, hrest⟩ := List.nodup_cons.mp hn
    have hseen : seen.contains a = false := by simpa using hd a List.mem_cons_self
    rw [List.cons_append, firstRepeatFrom, hseen]
    refine ih hrest (fun j hj hmem => ?_) ?_
    · rcases List.mem_cons.mp hmem with rfl | h
      · exact ha hj
      · exact hd j (List.mem_cons_of_mem a hj) h
    · rcases hi with h | h
      · exact (List.mem_cons.mp h).symm.imp_right fun e => by rw [e]; exact List.mem_cons_self
      · exact .inr (List.mem_cons_of_mem a h)

theorem firstRepeatFrom_nodup {l seen : List Nat} (hn : l.Nodup) (hd : ∀ j ∈ l, j ∉ seen) : firstRepeatFrom seen l = none := by
  induction l generalizing seen with
  | nil => rfl
  | cons a rest ih =>
    obtain ⟨ha, hrest⟩ := List.nodup_cons.mp hn
    have hseen : seen.contains a = false := by simpa using hd a List.mem_cons_self
    rw [firstRepeatFrom, hseen]
    refine ih hrest fun j hj hmem => ?_
    rcases List.mem_cons.mp hmem with rfl | h
    · exact ha hj
    · exact hd j (List.mem_cons_of_mem a hj) h

theorem firstRepeat_nodup {l : List Nat} (hn : l.Nodup) : firstRepeat l = none :=
  firstRepeatFrom_nodup hn fun _ _ => List.not_mem_nil

/-- A list of distinct compartments has at most sixteen (R10). -/
theorem picks_length {l : List Nat} (hn : l.Nodup) (h : ∀ j ∈ l, j < 16) : l.length ≤ 16 := by
  simpa using (hn.subperm fun j hj => List.mem_range.mpr (h j hj) : l.Subperm (List.range 16)).length_le

theorem firstNotOccupied_some {b : Bin} {before after : List Nat} {i : Nat} (h : ∀ j ∈ before, b.comp j = .occupied)
    (hi : b.comp i ≠ .occupied) : b.firstNotOccupied (before ++ i :: after) = some i := by
  have hb : before.find? (fun i => b.comp i != .occupied) = none := List.find?_eq_none.mpr fun j hj => by simp [h j hj]
  simp [Bin.firstNotOccupied, List.find?_append, hb, hi]

theorem firstNotOccupied_none {b : Bin} {l : List Nat} (h : ∀ j ∈ l, b.comp j = .occupied) : b.firstNotOccupied l = none :=
  List.find?_eq_none.mpr fun j hj => by simp [h j hj]

/-- The compartments of a bin after several took one state; every other field stands. -/
theorem setComps_eq (b : Bin) (l : List Nat) (c : Comp) :
    ∃ comps, b.setComps l c = { b with comps := comps } ∧
      ∀ j : Nat, comps[j]? = (b.comps[j]?).map (fun x => if j ∈ l then c else x) := by
  induction l generalizing b with
  | nil => exact ⟨b.comps, rfl, fun j => by simp⟩
  | cons a rest ih =>
    obtain ⟨comps, h, hj⟩ := ih (b.setComp a c)
    refine ⟨comps, h, fun j => ?_⟩
    rw [hj]
    simp only [Bin.setComp, List.getElem?_set, List.mem_cons]
    by_cases hja : a = j
    · subst hja
      rcases Nat.lt_or_ge a b.comps.length with hlt | hge
      · simp [hlt]
      · simp [Nat.not_lt.mpr hge]
    · simp [hja, Ne.symm hja]

theorem lendable_iff (b : Bin) :
    b.lendable = true ↔ b.place ≠ .unregistered ∧ b.place ≠ .misplaced ∧ b.quarantine = false := by
  simp [Bin.lendable, and_assoc]

/-! ## FETCH -/

/-- FETCH with its fields in bounds runs R128 to R131. -/
theorem ownFetch_taken {b a : Nat} {st : Station} {picks : List Nat} {loan : BitVec 32} (hb : b < 4096) (ha : a < 4)
    (hl : picks.length ≤ 16) (hp : ∀ i ∈ picks, i < 16) (s : State) :
    ownFetch ⟨b, stationCode st, picks, loan, a⟩ s = s.fetch b st picks loan := by
  have hall : picks.all okCompartment = true := List.all_eq_true.mpr fun i hi => by simpa [okCompartment] using hp i hi
  have hst : stationOfCode (stationCode st) = some st := by cases st <;> rfl
  simp [ownFetch, hst, (okBin_iff b).mpr hb, (okAuthority_iff a).mpr ha, hall, hl]

theorem exec_fetch_acked {s u : State} {b a : Nat} {st : Station} {picks : List Nat} {loan : BitVec 32} {f : List Field}
    (hs : s.serves .C) (hb : b < 4096) (ha : a < 4) (hl : picks.length ≤ 16) (hp : ∀ i ∈ picks, i < 16)
    (h : s.fetch b st picks loan = (u, .ack f)) :
    exec (.fetch .C b (stationCode st) picks loan a) s = .next (acked s .C .fetch f u) :=
  serve_acked hs rfl ((ownFetch_taken hb ha hl hp s).trans h)

theorem exec_fetch_refused {s : State} {b a : Nat} {st : Station} {picks : List Nat} {loan : BitVec 32} {r : Reason}
    {d : Option Nat} (hs : s.serves .C) (hb : b < 4096) (ha : a < 4) (hl : picks.length ≤ 16) (hp : ∀ i ∈ picks, i < 16)
    (h : s.fetch b st picks loan = (s, .nak r d)) :
    exec (.fetch .C b (stationCode st) picks loan a) s = .next (refused s .C .fetch r d) :=
  serve_refused hs rfl ((ownFetch_taken hb ha hl hp s).trans h)

/-- Past R128, FETCH is taken at the bay of its own station, refused at another's, and else goes to R130. -/
theorem fetch_checked {s : State} {b : Nat} {st : Station} {picks : List Nat} {loan : BitVec 32} (hn : picks.Nodup)
    (hlend : (s.bin b).lendable = true) (hocc : ∀ i ∈ picks, (s.bin b).comp i = .occupied) :
    s.fetch b st picks loan =
      match (s.bin b).place with
      | .atBay st' bay => if st' = st then s.fetchAtBay b st bay picks else refuse s .binBusy
      | _ => s.fetchStored b st picks loan := by
  unfold State.fetch
  rw [firstRepeat_nodup hn, hlend, firstNotOccupied_none hocc]
  cases (s.bin b).place <;> rfl

/-- Both zones of R130 in service: no zone refuses. -/
theorem zoneLends_iff (s : State) (z : Nat) :
    ((s.zone z).state != .inService && (s.zone z).state != .degraded) = false ↔
      (s.zone z).state = .inService ∨ (s.zone z).state = .degraded := by
  cases (s.zone z).state <;> decide

theorem fetchZone_cell {s : State} {n : Nat} (st : Station) (h1 : (s.zone (zoneOfCell n)).state ≠ .inService)
    (h2 : (s.zone (zoneOfCell n)).state ≠ .degraded) : s.fetchZone n st = some (zoneOfCell n) := by
  simp [State.fetchZone, h1, h2]

theorem fetchZone_station {s : State} {n : Nat} {st : Station}
    (hc : (s.zone (zoneOfCell n)).state = .inService ∨ (s.zone (zoneOfCell n)).state = .degraded)
    (h1 : (s.zone (zoneOfStation st)).state ≠ .inService) (h2 : (s.zone (zoneOfStation st)).state ≠ .degraded) :
    s.fetchZone n st = some (zoneOfStation st) := by
  simp [State.fetchZone, (zoneLends_iff s _).mpr hc, h1, h2]

theorem fetchZone_none {s : State} {n : Nat} {st : Station}
    (h : ∀ z, z = zoneOfCell n ∨ z = zoneOfStation st → (s.zone z).state = .inService ∨ (s.zone z).state = .degraded) :
    s.fetchZone n st = none := by
  simp [State.fetchZone, (zoneLends_iff s _).mpr (h _ (.inl rfl)), (zoneLends_iff s _).mpr (h _ (.inr rfl))]

/-- A FETCH order fills its slot: the slot, the counter and the bin's handle. -/
theorem fillSlot_fetch (s : State) (i b n a : Nat) (purpose : Purpose) (st : Station) (issuer : Issuer)
    (loan : Option (BitVec 32)) (level : Nat) :
    s.fillSlot i (newOrder .fetch purpose (some b) (.cell n) (some (.station st)) (craneOf st) issuer a loan level) =
      ((s.setSlot i ⟨(s.newHandle i).gen,
          some { newOrder .fetch purpose (some b) (.cell n) (some (.station st)) (craneOf st) issuer a loan level with
            seq := s.counter }⟩).setCounter (s.counter + 1)).setBin b { s.bin b with order := some (s.newHandle i) } := by
  simp [State.fillSlot, newOrder, State.bindBin, State.reserveFor, OrderKind.stows, State.clearWanted, State.takeOrphan]

theorem fetchStored_cell {s : State} {b n : Nat} {st : Station} {picks : List Nat} {loan : BitVec 32}
    (hplace : (s.bin b).place = .stored n) (ho : (s.bin b).order = none) :
    s.fetchStored b st picks loan =
      match s.fetchZone n st with
      | some z => refuseDetail s .zoneClosed z
      | none =>
        match s.creationRefusal (some b) .fetch with
        | some r => refuse s r
        | none =>
          match s.create (loanOrder b n st loan) with
          | none => refuse s .tableFull
          | some (t, h) =>
            (t.markPicks b picks, .ack [.present, .handle h, .num 1 (craneCode (craneOf st))]) := by
  simp [State.fetchStored, ho, hplace] <;> rfl

theorem fetchStored_busy {s : State} {b : Nat} {st : Station} {picks : List Nat} {loan : BitVec 32}
    (h : (∃ c, (s.bin b).place = .onCrane c) ∨ (s.bin b).order ≠ none) :
    s.fetchStored b st picks loan = refuse s .binBusy := by
  unfold State.fetchStored
  split
  · rfl
  · next ho =>
    rcases h with ⟨c, hc⟩ | h
    · rw [hc]
    · exact absurd (by simpa using ho) h

theorem queuedAutoStow_of {s : State} {b i g : Nat} {o : Order} (hb : (s.bin b).order = some ⟨i, g⟩) (hs : s.slot i = ⟨g, some o⟩) :
    s.queuedAutoStow b = if o.state = .queued ∧ o.kind = .stow ∧ o.purpose = .auto then some i else none := by
  simp [State.queuedAutoStow, State.slotOfBin, hb, orderOf_live hs, hs]

/-- Settles O39: R128 and R130 check by check; the fetch created; the fetch taken at the bay. -/
theorem fetchLendsOrIsRefused : Obligations.FetchLendsOrIsRefused := by
  refine ⟨?_, ?_, ?_⟩
  · rintro s b st picks loan a hs hb ha hl hp refusedWith rfl
    refine ⟨fun before i after e hn hi => ?_, fun hn => ⟨fun h => ?_, fun h1 h2 h3 => ⟨fun before i after e hbef hi => ?_, fun hocc => ?_⟩⟩⟩
    · refine exec_fetch_refused hs hb ha hl hp ?_
      simp [State.fetch, firstRepeat, e, firstRepeatFrom_repeats hn (fun _ _ => List.not_mem_nil) (.inl hi), refuseDetail]
    · refine exec_fetch_refused hs hb ha hl hp ?_
      have hlend : (s.bin b).lendable = false := by
        rw [← Bool.not_eq_true, lendable_iff]
        rintro ⟨h1, h2, h3⟩
        rcases h with h | h | h
        · exact h1 h
        · exact h2 h
        · simp [h3] at h
      simp [State.fetch, firstRepeat_nodup hn, hlend, refuse]
    · refine exec_fetch_refused hs hb ha hl hp ?_
      rw [State.fetch, firstRepeat_nodup hn, e]
      simp [(lendable_iff _).mpr ⟨h1, h2, h3⟩, firstNotOccupied_some hbef hi, refuseDetail]
    · have hchecked := fetch_checked (loan := loan) (st := st) hn ((lendable_iff _).mpr ⟨h1, h2, h3⟩) hocc
      refine ⟨fun h => ?_, fun n hplace ho => ?_⟩
      · refine exec_fetch_refused hs hb ha hl hp (hchecked.trans ?_)
        rcases h with ⟨c, hc⟩ | ⟨st', bay, hne, hbay⟩ | ⟨n, hplace, ho⟩
        · simp only [hc]
          exact fetchStored_busy (.inl ⟨c, hc⟩)
        · simp only [hbay, if_neg hne, refuse]
        · simp only [hplace]
          exact fetchStored_busy (.inr ho)
      · have hfetch : s.fetch b st picks loan = s.fetchStored b st picks loan := by rw [hchecked, hplace]
        rw [fetchStored_cell hplace ho] at hfetch
        refine ⟨fun z1 z2 => ?_, fun hz => ⟨fun z1 z2 => ?_, fun hz' => ⟨fun hw => ?_, fun hw hi => ?_⟩⟩⟩ <;>
          refine exec_fetch_refused hs hb ha hl hp (hfetch.trans ?_)
        · rw [fetchZone_cell st z1 z2]
          rfl
        · rw [fetchZone_station hz z1 z2]
          rfl
        all_goals
          have hbin : ∀ b', some b = some b' → (s.bin b').order = none := by
            rintro b' ⟨⟩
            exact ho
          rw [fetchZone_none (by rintro z (rfl | rfl) <;> assumption)]
        · rw [creationRefusal_held hbin (by decide) hw]
          rfl
        · rw [creationRefusal_full .fetch hbin (.inl hw) hi]
          rfl
  · rintro s b n st picks loan a i g hs hb ha hn hp hplace hq ho hocc hz hw hi rfl
    obtain ⟨comps, hcomps, hj⟩ := setComps_eq { s.bin b with order := some (s.newHandle i) } picks .pendingPick
    refine ⟨comps, hj, exec_fetch_acked hs hb ha (picks_length hn hp) hp ?_⟩
    have hlend : (s.bin b).lendable = true := (lendable_iff _).mpr ⟨by simp [hplace], by simp [hplace], hq⟩
    have hbin : ∀ b', some b = some b' → (s.bin b').order = none := by
      rintro b' ⟨⟩
      exact ho
    rw [fetch_checked hn hlend hocc, hplace]
    simp only
    rw [fetchStored_cell hplace ho, fetchZone_none hz, creationRefusal_none .fetch hbin (.inl hw) hi]
    simp only [create_eq hi]
    rw [loanOrder, fillSlot_fetch]
    simp only [State.markPicks, State.setBin_bin_same, hcomps, State.setBin_setBin]
    rfl
  · intro s b st bay picks loan a hs hb ha hn hp hplace hq hocc
    have hfetch : s.fetch b st picks loan = s.fetchAtBay b st bay picks := by
      rw [fetch_checked hn ((lendable_iff _).mpr ⟨by simp [hplace], by simp [hplace], hq⟩) hocc, hplace]
      simp only [if_true]
    refine ⟨fun t h hcase => ?_, fun i g o hbo hslot hne => ?_⟩
    · obtain ⟨comps, hcomps, hj⟩ := setComps_eq (t.bin b) picks .pendingPick
      refine ⟨comps, _, hj, rfl, exec_fetch_acked hs hb ha (picks_length hn hp) hp (hfetch.trans ?_)⟩
      have htake : t.takeAtBay b st bay picks =
          if picks = [] then
            (t.setBin b { t.bin b with comps := comps }).setBay st bay
              { (t.setBin b { t.bin b with comps := comps }).bay st bay with keep := true }
          else t.setBin b { t.bin b with comps := comps } := by
        simp only [State.takeAtBay, State.markPicks, hcomps, List.isEmpty_iff, State.setKeep]
      rw [← htake]
      rcases hcase with ⟨ho, rfl, rfl⟩ | ⟨i, g, o, hbo, hslot, h1, h2, h3, rfl, rfl⟩
      · simp [State.fetchAtBay, ho]
      · simp [State.fetchAtBay, hbo, queuedAutoStow_of hbo hslot, h1, h2, h3]
    · refine exec_fetch_refused hs hb ha (picks_length hn hp) hp (hfetch.trans ?_)
      have hno : ¬(o.state = .queued ∧ o.kind = .stow ∧ o.purpose = .auto) := by tauto
      simp [State.fetchAtBay, hbo, queuedAutoStow_of hbo hslot, hno, refuse]

/-! ## Auto-stow -/

theorem stowCandidate_none {s : State} {st : Station} {bay : Nat}
    (h : ∀ b, (s.bay st bay).state = .occupied b →
      (∃ c ∈ (s.bin b).comps, c = .pendingPick ∨ c = .claimed) ∨ (s.bay st bay).keep = true ∨ (s.bin b).order ≠ none) :
    s.stowCandidate st bay = none := by
  unfold State.stowCandidate
  cases hst : (s.bay st bay).state with
  | occupied b =>
    have hor : (s.bin b).hasOpen = true ∨ (s.bay st bay).keep = true ∨ (s.bin b).order.isSome = true := by
      refine (h b hst).imp (fun ⟨c, hc, e⟩ => ?_) (.imp_right Option.isSome_iff_ne_none.mpr)
      exact List.any_eq_true.mpr ⟨c, hc, by simpa using e⟩
    simp only [BayState.occupiedBin]
    rw [if_pos (by simpa [or_assoc] using hor)]
  | empty => rfl
  | inbound h => rfl
  | outbound b => rfl

theorem stowCandidate_some {s : State} {st : Station} {bay b : Nat} (hst : (s.bay st bay).state = .occupied b)
    (hc : ∀ c ∈ (s.bin b).comps, c ≠ .pendingPick ∧ c ≠ .claimed) (hk : (s.bay st bay).keep = false)
    (ho : (s.bin b).order = none) : s.stowCandidate st bay = some b := by
  have hopen : (s.bin b).hasOpen = false := List.any_eq_false.mpr fun c hmem => by simpa using hc c hmem
  simp [State.stowCandidate, hst, BayState.occupiedBin, hopen, hk, ho]

/-- An auto-stow fills its slot: slot, counter, the bin's handle, the reserved cell, and the bay's stow-wanted flag. -/
theorem fillSlot_stow (s : State) (i : Nat) (st : Station) (bay b n : Nat) :
    s.fillSlot i (stowOrder st bay b n) =
      ((((s.setSlot i ⟨(s.newHandle i).gen, some { stowOrder st bay b n with seq := s.counter }⟩).setCounter
        (s.counter + 1)).setBin b { s.bin b with order := some (s.newHandle i) }).setCell n
          ⟨.reserved (s.newHandle i), (s.cell n).stamp, 0⟩).setBay st bay { s.bay st bay with stowWanted := false } := by
  simp [State.fillSlot, stowOrder, newOrder, State.bindBin, State.reserveFor, OrderKind.stows, Order.destCell, Place.cellOf,
    State.reserveCell, State.cellTo, Cell.toState, State.clearWanted, State.setStowWanted, State.takeOrphan]

theorem attemptStow_created {s : State} {st : Station} {bay b i n : Nat} (ho : (s.bin b).order = none)
    (hw : s.sched.wing = .normal) (hi : s.freeSlot = some i) (hn : s.destScan st = some n) :
    s.attemptStow st bay b = (s.fillSlot i (stowOrder st bay b n), some (s.newHandle i)) := by
  have hbin : ∀ b', some b = some b' → (s.bin b').order = none := by
    rintro b' ⟨⟩
    exact ho
  simp only [State.attemptStow, creationRefusal_none .stow hbin (.inl hw) hi, hn, create_eq hi]

theorem attemptStow_wanted {s : State} {st : Station} {bay b : Nat} (ho : (s.bin b).order = none)
    (h : s.sched.wing = .held ∨ s.freeSlot = none ∨ s.destScan st = none) :
    s.attemptStow st bay b = (s.setStowWanted st bay true, none) := by
  have hbin : ∀ b', some b = some b' → (s.bin b').order = none := by
    rintro b' ⟨⟩
    exact ho
  cases hw : s.sched.wing with
  | held => simp only [State.attemptStow, creationRefusal_held (k := .stow) hbin (by decide) hw]
  | normal =>
    cases hi : s.freeSlot with
    | none => simp only [State.attemptStow, creationRefusal_full .stow hbin (.inl hw) hi]
    | some i =>
      have hn : s.destScan st = none := by simpa [hw, hi] using h
      simp only [State.attemptStow, creationRefusal_none .stow hbin (.inl hw) hi, hn]

/-- An auto-stow evaluation moves no bin. -/
theorem attemptStow_place (s : State) (st : Station) (bay b m : Nat) :
    ((s.attemptStow st bay b).1.bin m).place = (s.bin m).place := by
  unfold State.attemptStow
  dsimp only
  split
  · rfl
  · split
    · rfl
    · split
      · rfl
      · next t h hc =>
        obtain ⟨i, -, rfl, -⟩ := create_some hc
        rw [fillSlot_bin]
        split <;> rfl

theorem autoStow_place (s : State) (st : Station) (bay m : Nat) : ((s.autoStow st bay).1.bin m).place = (s.bin m).place := by
  unfold State.autoStow
  split
  · rfl
  · exact attemptStow_place s st bay _ m

/-- Settles O41: RELBAY's fields; the auto-stow conditions of R144 and the three ways an attempt ends. -/
theorem relbayEvaluatesTheAutoStow : Obligations.RelbayEvaluatesTheAutoStow := by
  refine ⟨?_, fun s st bay => ⟨fun h => ?_, fun b hst hc hk ho => ⟨?_, fun h => ?_⟩⟩⟩
  · rintro s st bay u hs hb rfl
    refine serve_acked hs rfl ?_
    have hst : stationOfCode (stationCode st) = some st := by cases st <;> rfl
    have hbay : okBay bay = true := by simpa [okBay] using hb
    simp only [ownRelbay, hst, hbay, if_true, State.relbay, State.setKeep]
    cases ((s.setBay st bay { s.bay st bay with keep := false }).autoStow st bay).1.bay st bay |>.state <;> rfl
  · simp only [State.autoStow, stowCandidate_none h]
  · rintro i n g hw hi hn rfl
    simp only [State.autoStow, stowCandidate_some hst hc hk ho]
    rw [attemptStow_created ho hw hi hn, fillSlot_stow]
    rfl
  · simp only [State.autoStow, stowCandidate_some hst hc hk ho]
    exact attemptStow_wanted ho h

/-! ## PICK, UNPICK, PLACE and UNCLAIM -/

/-- The four desk requests as one request over their table (R133 to R137). -/
theorem exec_desk {b j : Nat} {k : Kind} {i : Instr} {atBay : Bool} {source target : Comp}
    (h : (k, i, atBay, source, target) ∈
      [(Kind.pick, Instr.pick .C b j, true, Comp.pendingPick, Comp.free), (.unpick, .unpick .C b j, false, .pendingPick, .occupied),
        (.place, .place .C b j, true, .claimed, .occupied), (.unclaim, .unclaim .C b j, true, .claimed, .free)]) (s : State) :
    portRefusal .C k = none ∧
      exec i s = serve .C k (bodyNum2 2 1) (b, j)
        (deskRequest atBay source target (if k = .place then keepUnlessFull else noAfter)) false s := by
  simp only [List.mem_cons, List.not_mem_nil, or_false, Prod.mk.injEq] at h
  rcases h with ⟨rfl, rfl, rfl, rfl, rfl⟩ | ⟨rfl, rfl, rfl, rfl, rfl⟩ | ⟨rfl, rfl, rfl, rfl, rfl⟩ | ⟨rfl, rfl, rfl, rfl, rfl⟩ <;>
    exact ⟨rfl, rfl⟩

theorem isAtBay_iff (x : BinPlace) : x.isAtBay = true ↔ ∃ st bay, x = .atBay st bay := by cases x <;> simp [BinPlace.isAtBay]

theorem isAtBay_false {x : BinPlace} (h : ∀ st bay, x ≠ .atBay st bay) : x.isAtBay = false := by
  rw [← Bool.not_eq_true, isAtBay_iff]
  rintro ⟨st, bay, e⟩
  exact h st bay e

theorem deskRequest_taken {atBay : Bool} {source target : Comp} {after : Nat → State → State} {b j : Nat} {s : State}
    (hb : b < 4096) (hj : j < 16) (hp : atBay = true → (s.bin b).place.isAtBay = true) (hc : (s.bin b).comp j = source) :
    deskRequest atBay source target after (b, j) s =
      (after b (s.setBin b { s.bin b with comps := (s.bin b).comps.set j target })).deskDone b j := by
  have hp' : (atBay && !(s.bin b).place.isAtBay) = false := by
    cases atBay with
    | false => rfl
    | true => simp [hp rfl]
  simp [deskRequest, (okBin_iff b).mpr hb, okCompartment, hj, hp', hc, Bin.setComp]

/-- What the end of a desk request answers for a bin at its bay. -/
theorem deskDone_atBay {s : State} {b j : Nat} {st : Station} {bay : Nat} (h : (s.bin b).place = .atBay st bay) :
    s.deskDone b j = ((s.autoStow st bay).1, .ack
      ([.num 1 j, .named (((s.autoStow st bay).1.bin b).comp j).code, .num 1 (((s.autoStow st bay).1.bin b).comps.count .free),
        .present, .num 1 (stationCode st), .present, .num 1 bay, .present, flagField ((s.autoStow st bay).1.bay st bay).keep,
        .present, flagField ((s.autoStow st bay).1.bay st bay).stowWanted] ++ optField .handle (s.autoStow st bay).2)) := by
  have hdone : ((s.autoStow st bay).1.bin b).place = .atBay st bay := (autoStow_place s st bay b).trans h
  simp [State.deskDone, State.evalDesk, h, State.deskFields, hdone, freeCount_eq]

theorem deskDone_away {s : State} {b j : Nat} (h : ∀ st bay, (s.bin b).place ≠ .atBay st bay) :
    s.deskDone b j = (s, .ack
      [.num 1 j, .named ((s.bin b).comp j).code, .num 1 ((s.bin b).comps.count .free), .absent, .absent, .absent, .absent,
        .absent]) := by
  cases hp : (s.bin b).place with
  | atBay st bay => exact absurd hp (h st bay)
  | unregistered => simp [State.deskDone, State.evalDesk, hp, State.deskFields, freeCount_eq, optField]
  | stored n => simp [State.deskDone, State.evalDesk, hp, State.deskFields, freeCount_eq, optField]
  | onCrane c => simp [State.deskDone, State.evalDesk, hp, State.deskFields, freeCount_eq, optField]
  | misplaced => simp [State.deskDone, State.evalDesk, hp, State.deskFields, freeCount_eq, optField]

theorem keepUnlessFull_atBay {s : State} {b : Nat} {st : Station} {bay : Nat} (h : (s.bin b).place = .atBay st bay) :
    keepUnlessFull b s =
      if (s.bin b).comps.count .free = 0 then s.setBay st bay { s.bay st bay with keep := false } else s := by
  simp only [keepUnlessFull, h, State.setKeep]
  rfl

/-- Settles O40: the four requests are one request over a table. -/
theorem deskRequestsChangeOneCompartment : Obligations.DeskRequestsChangeOneCompartment := by
  intro s b j hs hb hj k i atBay source target hmem
  obtain ⟨hport, hexec⟩ := exec_desk hmem s
  rw [hexec]
  have hok : (!(okBin b && okCompartment j)) = false := by simp [(okBin_iff b).mpr hb, okCompartment, hj]
  refine ⟨fun hat hp => serve_refused hs hport ?_, fun hp hc => serve_refused hs hport ?_,
    fun hc t ht => ⟨fun st bay u hp hu => serve_acked hs hport ?_, fun hat hp => serve_acked hs hport ?_⟩⟩
  · simp [deskRequest, hok, hat, isAtBay_false hp, refuse]
  · have hp' : (atBay && !(s.bin b).place.isAtBay) = false := by
      cases hat : atBay with
      | false => rfl
      | true => simp [(isAtBay_iff _).mpr (hp hat)]
    simp [deskRequest, hok, hp', hc, refuseDetail]
  · rw [deskRequest_taken hb hj (fun _ => (isAtBay_iff _).mpr ⟨st, bay, hp⟩) hc, ← ht]
    have htp : (t.bin b).place = .atBay st bay := by simp [ht, hp]
    have hafter : (if k = .place then keepUnlessFull else noAfter) b t =
        if k = .place ∧ (t.bin b).comps.count .free = 0 then t.setBay st bay { t.bay st bay with keep := false } else t := by
      by_cases hk : k = .place
      · simp only [if_pos hk, keepUnlessFull_atBay htp, and_iff_right hk]
      · simp [hk, noAfter]
    rw [hafter, hu]
    refine deskDone_atBay ?_
    split
    · simpa using htp
    · exact htp
  · rw [deskRequest_taken hb hj (fun h => by simp [hat] at h) hc, ← ht]
    have hk : k ≠ .place := by
      rintro rfl
      simp [hat] at hmem
    simp only [if_neg hk, noAfter]
    exact deskDone_away fun st bay => by simpa [ht] using hp st bay

end Sys2Proof.Machine

end

/-! # The allocation scans and SLOT (O42) -/

section

namespace Sys2Proof.Machine

/-! ## The least number that passes -/

/-- What a search delivers: none when nothing passes, else the passing number of least rank. -/
def LeastBy (r : Option Nat) (P : Nat → Prop) (rank : Nat → Nat) : Prop :=
  match r with
  | none => ∀ n, ¬P n
  | some n => P n ∧ ∀ m, P m → rank n ≤ rank m

/-- Where ranks tell the passing numbers apart, the search's answer is characterised. -/
theorem LeastBy.iff {r : Option Nat} {P : Nat → Prop} {rank : Nat → Nat} (h : LeastBy r P rank)
    (hinj : ∀ n m, P n → P m → rank n = rank m → n = m) :
    (r = none ↔ ∀ n, ¬P n) ∧ ∀ n, r = some n ↔ P n ∧ ∀ m, P m → rank n ≤ rank m := by
  cases r with
  | none => exact ⟨⟨fun _ => h, fun _ => rfl⟩, fun n => ⟨fun e => by simp at e, fun hn => absurd hn.1 (h n)⟩⟩
  | some a =>
    obtain ⟨ha, hleast⟩ := h
    refine ⟨⟨fun e => by simp at e, fun hnone => absurd ha (hnone a)⟩, fun n => ⟨?_, fun ⟨hn, hmin⟩ => ?_⟩⟩
    · rintro ⟨⟩
      exact ⟨ha, hleast⟩
    · rw [hinj a n ha hn (le_antisymm (hleast n hn) (hmin a ha))]

/-- The same search under another rank that orders the passing numbers alike. -/
theorem LeastBy.congr {r : Option Nat} {P Q : Nat → Prop} {rank rank' : Nat → Nat} (h : LeastBy r P rank)
    (hP : ∀ n, P n ↔ Q n) (hr : ∀ n m, P n → P m → rank n ≤ rank m → rank' n ≤ rank' m) : LeastBy r Q rank' := by
  cases r with
  | none => exact fun n hn => h n ((hP n).mpr hn)
  | some a => exact ⟨(hP a).mp h.1, fun m hm => hr a m h.1 ((hP m).mpr hm) (h.2 m ((hP m).mpr hm))⟩

/-- A search of one kind of numbers and then of another that all rank after them. -/
theorem LeastBy.orElse {r r' : Option Nat} {P Q : Nat → Prop} {rank : Nat → Nat} (h : LeastBy r P rank)
    (h' : LeastBy r' Q rank) (hlt : ∀ n m, P n → Q m → rank n ≤ rank m) :
    LeastBy (r.orElse fun _ => r') (fun n => P n ∨ Q n) rank := by
  cases r with
  | none =>
    cases r' with
    | none => exact fun n hn => hn.elim (h n) (h' n)
    | some a => exact ⟨.inr h'.1, fun m hm => h'.2 m (hm.resolve_left (h m))⟩
  | some a => exact ⟨.inl h.1, fun m hm => hm.elim (h.2 m) (hlt a m h.1)⟩

theorem findUp_leastBy (p : Nat → Bool) (a k : Nat) :
    LeastBy (findUp p a k) (fun n => (a ≤ n ∧ n < a + k) ∧ p n = true) (fun n => n) := by
  induction k generalizing a with
  | zero => exact fun n hn => by omega
  | succ k ih =>
    unfold findUp
    split
    · next hp => exact ⟨⟨by omega, hp⟩, fun m hm => hm.1.1⟩
    · next hp =>
      refine (ih (a + 1)).congr (fun n => ⟨fun ⟨h, hn⟩ => ⟨by omega, hn⟩, fun ⟨h, hn⟩ => ⟨?_, hn⟩⟩) (fun n m _ _ h => h)
      have hne : n ≠ a := by
        rintro rfl
        exact hp hn
      omega

theorem findDown_leastBy (p : Nat → Bool) {a k : Nat} (hk : k ≤ a + 1) :
    LeastBy (findDown p a k) (fun n => (n ≤ a ∧ a < n + k) ∧ p n = true) (fun n => a - n) := by
  induction k generalizing a with
  | zero => exact fun n hn => by omega
  | succ k ih =>
    unfold findDown
    split
    · next hp => exact ⟨⟨by omega, hp⟩, fun m hm => by simp⟩
    · next hp =>
      have hne : ∀ n, p n = true → n ≠ a := by
        rintro n hn rfl
        exact hp hn
      rcases Nat.eq_zero_or_pos a with rfl | ha
      · obtain rfl : k = 0 := by omega
        exact fun n hn => hne n hn.2 (by omega)
      · refine (ih (a := a - 1) (by omega)).congr
          (fun n => ⟨fun ⟨h, hn⟩ => ⟨by omega, hn⟩, fun ⟨h, hn⟩ => ⟨?_, hn⟩⟩) (fun n m _ _ h => by omega)
        have := hne n hn
        omega

/-! ## The conditions of the scans (R12 to R15) -/

theorem separates_iff (k a b : Nat) :
    separates k a b = true ↔ a ≤ 10 * k + 10 ∧ 10 * k + 11 ≤ b ∨ b ≤ 10 * k + 10 ∧ 10 * k + 11 ≤ a := by
  unfold separates
  rw [decide_eq_true_eq]
  rfl

theorem beyond_iff (s : State) (a b : Nat) :
    (!s.beyond a b) = true ↔ ∀ k, k < 3 → (s.shutter k).state ≠ .open → (a ≤ 10 * k + 10 ↔ b ≤ 10 * k + 10) := by
  rw [Bool.not_eq_true', State.beyond, List.any_eq_false, forall_shutterNumbers]
  refine forall₂_congr fun k hk => ?_
  simp only [Bool.and_eq_true, Bool.not_eq_true', ← Bool.not_eq_true, shutterOpen_iff, not_and, separates_iff]
  exact imp_congr_right fun _ => by omega

theorem stationOk_iff (s : State) (st : Station) (n : Nat) :
    s.stationOk st n = true ↔ ∀ k, k < 3 → (s.shutter k).state ≠ .open →
      (st = .W → 1 + n / 96 ≤ 10 * k + 10) ∧ (st = .E → 10 * k + 11 ≤ 1 + n / 96) := by
  rw [State.stationOk, beyond_iff]
  refine forall₂_congr fun k hk => imp_congr_right fun _ => ?_
  cases st with
  | W => simp [stationSegment, cellSegment]
  | E =>
    simp only [stationSegment, cellSegment, reduceCtorEq, false_implies, true_and, forall_const]
    omega

theorem destAccepts_iff (s : State) (st : Station) (n : Nat) :
    s.destAccepts st n = true ↔ (s.cell n).state = .empty ∧ (s.zone (zoneOfCell n)).state = .inService ∧
      s.stationOk st n = true := by
  simp [State.destAccepts, State.zoneOk, inService_iff, and_assoc]

theorem returnAccepts_iff (s : State) (st : Station) (n : Nat) :
    s.returnAccepts st n = true ↔
      (∃ b, (s.cell n).state = .occupied b ∧ s.settings.leastFree ≤ (s.bin b).comps.count .free ∧
        (s.bin b).quarantine = false ∧ (s.bin b).order = none) ∧
      (s.zone (zoneOfCell n)).state = .inService ∧ s.stationOk st n = true := by
  unfold State.returnAccepts
  cases (s.cell n).state with
  | occupied b =>
    have hfree : decide (s.settings.leastFree ≤ (s.bin b).freeCount) = true ↔
        s.settings.leastFree ≤ (s.bin b).comps.count .free := decide_eq_true_iff
    simp only [Bool.and_eq_true, hfree]
    simp [State.zoneOk, inService_iff, and_assoc]
  | unverified => simp
  | empty => simp
  | reserved h => simp
  | suspect => simp
  | blocked => simp

theorem homeAccepts_iff (s : State) (c : Crane) (n : Nat) :
    s.homeAccepts c n = true ↔ (s.cell n).state = .empty ∧ (s.zone (zoneOfCell n)).state = .inService ∧
      (s.seg (1 + n / 96)).holder ≠ some (otherCrane c) ∧
      ∀ k, k < 3 → (s.shutter k).state ≠ .open → (s.currentSegment c ≤ 10 * k + 10 ↔ 1 + n / 96 ≤ 10 * k + 10) := by
  have hshut := beyond_iff s (s.currentSegment c) (1 + n / 96)
  have hheld : (!s.holds (otherCrane c) (cellSegment n)) = true ↔ (s.seg (1 + n / 96)).holder ≠ some (otherCrane c) := by
    simp [State.holds, cellSegment]
  unfold State.homeAccepts
  rw [Bool.and_eq_true, hheld, Bool.and_eq_true, Bool.and_eq_true, State.zoneOk, inService_iff, beq_iff_eq, State.craneOk,
    cellSegment, hshut]
  tauto

/-! ## The scans by rank -/

/-- A station's scan gives the passing cell nearest its own end (R13, R15). -/
theorem stationScan_leastBy (st : Station) (p : Nat → Bool) :
    LeastBy (stationScan st p) (fun n => n < 3840 ∧ p n = true) (fun n => match st with | .W => n | .E => 3839 - n) := by
  cases st with
  | W =>
    exact (findUp_leastBy p 0 3840).congr (fun n => and_congr_left fun _ => by omega) (fun n m _ _ h => h)
  | E =>
    exact (findDown_leastBy p (a := 3839) (k := 3840) (by omega)).congr (fun n => and_congr_left fun _ => by omega)
      (fun n m _ _ h => h)

/-- What R13 and R15 say of a station's scan. -/
theorem stationScan_iff {st : Station} {p : Nat → Bool} {passes : Nat → Prop} (h : ∀ n, passes n ↔ n < 3840 ∧ p n = true) :
    (stationScan st p = none ↔ ∀ n, ¬passes n) ∧
      ∀ n, stationScan st p = some n ↔ passes n ∧ ∀ m, passes m → (st = .W → n ≤ m) ∧ (st = .E → m ≤ n) := by
  obtain ⟨hnone, hsome⟩ := (stationScan_leastBy st p).iff fun n m hn hm e => by cases st <;> simp at e <;> omega
  simp only [← h] at hnone hsome
  refine ⟨hnone, fun n => (hsome n).trans (and_congr_right fun hn => forall₂_congr fun m hm => ?_)⟩
  have hn := ((h n).mp hn).1
  have hm := ((h m).mp hm).1
  cases st with
  | W => simp
  | E =>
    simp only [reduceCtorEq, false_implies, true_and, forall_const]
    omega

/-- The rank of a cell in the toward-home scan from segment `here`: the crane's own segment down to its end of the wing,
then the far side (R14). -/
def homeRank (c : Crane) (here n : Nat) : Nat :=
  match c with
  | .A => if n < 96 * here then 96 * here - 1 - n else n
  | .B => if 96 * (here - 1) ≤ n then n - 96 * (here - 1) else 3839 - n

theorem homeRank_inj {c : Crane} {here n m : Nat} (hn : n < 3840) (hm : m < 3840)
    (h : homeRank c here n = homeRank c here m) : n = m := by
  cases c <;> simp only [homeRank] at h <;> split at h <;> split at h <;> omega

theorem homeScan_leastBy (s : State) (c : Crane) :
    LeastBy (s.homeScan c) (fun n => n < 3840 ∧ s.homeAccepts c n = true) (homeRank c (s.currentSegment c)) := by
  cases c with
  | A =>
    let p := s.homeAccepts .A
    let n := min (96 * s.currentSegment .A) 3840
    have hdown : LeastBy (findDown p (n - 1) n) (fun m => m < n ∧ p m = true) (homeRank .A (s.currentSegment .A)) :=
      (findDown_leastBy p (by omega)).congr (fun m => and_congr_left fun _ => by omega)
        (fun m m' hm hm' h => by simp only [homeRank]; split <;> split <;> omega)
    have hup : LeastBy (findUp p n (3840 - n)) (fun m => (n ≤ m ∧ m < 3840) ∧ p m = true) (homeRank .A (s.currentSegment .A)) :=
      (findUp_leastBy p n (3840 - n)).congr (fun m => and_congr_left fun _ => by omega)
        (fun m m' hm hm' h => by simp only [homeRank]; split <;> split <;> omega)
    refine (hdown.orElse hup fun m m' hm hm' => ?_).congr (fun m => ?_) (fun m m' _ _ h => h)
    · simp only [homeRank]
      split <;> split <;> omega
    · have : (m < n ∨ n ≤ m ∧ m < 3840) ↔ m < 3840 := by omega
      rw [← or_and_right, this]
  | B =>
    let p := s.homeAccepts .B
    let n := min (96 * (s.currentSegment .B - 1)) 3840
    have hdown : LeastBy (findDown p (n - 1) n) (fun m => m < n ∧ p m = true) (homeRank .B (s.currentSegment .B)) :=
      (findDown_leastBy p (by omega)).congr (fun m => and_congr_left fun _ => by omega)
        (fun m m' hm hm' h => by simp only [homeRank]; split <;> split <;> omega)
    have hup : LeastBy (findUp p n (3840 - n)) (fun m => (n ≤ m ∧ m < 3840) ∧ p m = true) (homeRank .B (s.currentSegment .B)) :=
      (findUp_leastBy p n (3840 - n)).congr (fun m => and_congr_left fun _ => by omega)
        (fun m m' hm hm' h => by simp only [homeRank]; split <;> split <;> omega)
    refine (hup.orElse hdown fun m m' hm hm' => ?_).congr (fun m => ?_) (fun m m' _ _ h => h)
    · simp only [homeRank]
      split <;> split <;> omega
    · have : (n ≤ m ∧ m < 3840 ∨ m < n) ↔ m < 3840 := by omega
      rw [← or_and_right, this]

/-! ## SLOT (R139 to R141) -/

/-- The bay can take a volume (R139). -/
theorem slotBay_some {s : State} {st : Station} {bay b j : Nat} (hb : (s.bay st bay).state = .occupied b)
    (ho : (s.bin b).order = none) (hq : (s.bin b).quarantine = false) (hj : (s.bin b).comps[j]? = some .free)
    (hlow : ∀ i : Nat, i < j → (s.bin b).comps[i]? ≠ some .free) : s.slotBay st bay = some (b, j) := by
  obtain ⟨hlt, hval⟩ := List.getElem?_eq_some_iff.mp hj
  have hfind : (s.bin b).lowestFree = some j := by
    refine List.findIdx?_eq_some_iff_getElem.mpr ⟨hlt, by simp [hval], fun i hi => ?_⟩
    have := hlow i hi
    rw [List.getElem?_eq_getElem (hi.trans hlt)] at this
    simpa using this
  simp [State.slotBay, hb, BayState.occupiedBin, ho, hq, hfind]

theorem slotBay_none {s : State} {st : Station} {bay : Nat}
    (h : ∀ b, (s.bay st bay).state = .occupied b →
      (s.bin b).order ≠ none ∨ (s.bin b).quarantine = true ∨ .free ∉ (s.bin b).comps) : s.slotBay st bay = none := by
  unfold State.slotBay
  cases hst : (s.bay st bay).state with
  | occupied b =>
    simp only [BayState.occupiedBin]
    split
    · rfl
    · next hn =>
      have hfree : .free ∉ (s.bin b).comps := by
        rcases h b hst with h | h | h
        · simp [Option.isSome_iff_ne_none.mpr h] at hn
        · simp [h] at hn
        · exact h
      have hfind : (s.bin b).lowestFree = none := by
        refine List.findIdx?_eq_none_iff.mpr fun c hc => ?_
        rw [beq_eq_false_iff_ne]
        rintro rfl
        exact hfree hc
      rw [hfind]
      rfl
  | empty => rfl
  | inbound h => rfl
  | outbound b => rfl

/-- A claim takes one FREE compartment. -/
theorem count_free_set {l : List Comp} {j : Nat} (h : l[j]? = some .free) :
    (l.set j .claimed).count .free = l.count .free - 1 := by
  obtain ⟨hlt, hval⟩ := List.getElem?_eq_some_iff.mp h
  rw [List.count_set hlt, hval]
  simp

theorem returnFetch_some {s : State} {st : Station} {i : Nat} {o : Order} (hi : i < 64) (hs : (s.slot i).order = some o)
    (hk : o.kind = .fetch) (hp : o.purpose = .ret) (hd : o.dest = some (.station st))
    (hlow : ∀ j q, j < i → (s.slot j).order = some q → q.kind ≠ .fetch ∨ q.purpose ≠ .ret ∨ q.dest ≠ some (.station st)) :
    s.returnFetch st = some i := by
  have hsplit : slotNumbers = List.range i ++ i :: List.range' (i + 1) (63 - i) := by
    have hrange : List.range 64 = List.range' 0 (i + (1 + (63 - i))) := by
      rw [List.range_eq_range']
      congr 1
      omega
    rw [slotNumbers, hrange, ← List.range'_append_1, ← List.range'_append_1, List.range_eq_range']
    simp
  have hbefore : ((List.range i).filterMap fun i => (s.slot i).order.map fun o => (i, o)).find?
      (fun e => e.2.kind == .fetch && e.2.purpose == .ret && e.2.dest == some (.station st)) = none := by
    refine List.find?_eq_none.mpr fun e he => ?_
    obtain ⟨j, hj, hje⟩ := List.mem_filterMap.mp he
    obtain ⟨q, hq, rfl⟩ := Option.map_eq_some_iff.mp hje
    have := hlow j q (List.mem_range.mp hj) hq
    simp only [Bool.and_eq_true, beq_iff_eq]
    tauto
  rw [State.returnFetch, State.liveOrders, hsplit, List.filterMap_append, List.find?_append, hbefore]
  simp [hs, hk, hp, hd]

theorem returnFetch_none {s : State} {st : Station}
    (h : ∀ j q, j < 64 → (s.slot j).order = some q → q.kind ≠ .fetch ∨ q.purpose ≠ .ret ∨ q.dest ≠ some (.station st)) :
    s.returnFetch st = none := by
  have hnone : s.liveOrders.find? (fun e => e.2.kind == .fetch && e.2.purpose == .ret && e.2.dest == some (.station st)) = none := by
    refine List.find?_eq_none.mpr fun e he => ?_
    obtain ⟨hj, hq⟩ := (mem_liveOrders s e.1 e.2).mp he
    have := h e.1 e.2 hj hq
    simp only [Bool.and_eq_true, beq_iff_eq]
    tauto
  rw [State.returnFetch, hnone]
  rfl

theorem exec_slot (s : State) (st : Station) :
    exec (.slot .C (stationCode st)) s = serve .C .slot (bodyNum 1) (stationCode st) ownSlot false s := rfl

theorem ownSlot_station (s : State) (st : Station) : ownSlot (stationCode st) s = s.allocSlot st := by cases st <;> rfl

theorem allocSlot_fetch {s : State} {st : Station}
    (hroom : ∀ bay b, bay < 2 → (s.bay st bay).state = .occupied b →
      (s.bin b).order ≠ none ∨ (s.bin b).quarantine = true ∨ .free ∉ (s.bin b).comps) :
    s.allocSlot st =
      match s.returnFetch st with
      | some i => (s, slotNone 1 (some (s.handleAt i)))
      | none => s.slotFetch st := by
  have hchoice : s.slotChoice st = none := by
    rw [State.slotChoice, slotBay_none fun b => hroom 0 b (by omega), slotBay_none fun b => hroom 1 b (by omega)]
  simp only [State.allocSlot, hchoice] <;> rfl

theorem slotFetch_found {s : State} {st : Station} {n b : Nat} (hn : s.returnScan st = some n)
    (hb : (s.cell n).state = .occupied b) :
    s.slotFetch st =
      match s.creationRefusal (some b) .fetch with
      | some r => refuse s r
      | none =>
        match s.create (returnOrder b n st) with
        | none => refuse s .tableFull
        | some (t, h) => (t, slotNone 0 (some h)) := by
  rw [State.slotFetch, hn]
  simp only [hb, CellState.bin] <;> rfl

/-- A cell that the return-bin scan gives holds a bin with no live order (R15). -/
theorem returnScan_free {s : State} {st : Station} {n b : Nat} (hn : s.returnScan st = some n)
    (hb : (s.cell n).state = .occupied b) : (s.bin b).order = none := by
  have hleast := stationScan_leastBy st (s.returnAccepts st)
  rw [← State.returnScan, hn] at hleast
  obtain ⟨⟨b', hb', -, -, ho⟩, -⟩ := (returnAccepts_iff s st n).mp hleast.1.2
  cases hb.symm.trans hb'
  exact ho

/-- SLOT claims the lowest FREE compartment of its bay (R139). -/
theorem allocSlot_claims {s : State} {st : Station} {bay b j : Nat} (hch : s.slotChoice st = some (bay, b, j))
    (hj : (s.bin b).comps[j]? = some .free) :
    s.allocSlot st = (s.setBin b { s.bin b with comps := (s.bin b).comps.set j .claimed },
      .ack [.named 0, .num 1 (stationCode st), .num 1 bay, .num 2 b, .num 1 j, .num 1 ((s.bin b).comps.count .free - 1)]) := by
  simp only [State.allocSlot, hch, Bin.setComp, State.setBin_bin_same, freeCount_eq, count_free_set hj]

/-- Settles O42: SLOT by its bays, its live return fetch and its scan; the scans by rank. -/
theorem slotClaimsOrFetches : Obligations.SlotClaimsOrFetches := by
  refine ⟨fun s st hs => ⟨?_, fun hroom => ⟨?_, fun hno => ⟨fun hscan => ?_, fun n b hn hb => ?_⟩⟩⟩, ?_, ?_⟩
  · rintro bay b j room hbay rfl hfirst ⟨b', hb', ho, hq, -⟩ hb hj hlow
    cases hb.symm.trans hb'
    refine serve_acked hs rfl ((ownSlot_station s st).trans (allocSlot_claims ?_ hj))
    have hthis := slotBay_some hb ho hq hj hlow
    obtain rfl | rfl : bay = 0 ∨ bay = 1 := by omega
    · simp [State.slotChoice, hthis]
    · have hzero : s.slotBay st 0 = none := slotBay_none fun b0 h0 => by
        by_contra hc
        simp only [not_or, not_not, Bool.not_eq_true] at hc
        exact hfirst rfl ⟨b0, h0, hc⟩
      simp [State.slotChoice, hzero, hthis]
  · intro i g o hi hsl hk hp hd hlow
    refine serve_acked hs rfl ((ownSlot_station s st).trans ?_)
    rw [allocSlot_fetch hroom, returnFetch_some hi (by rw [hsl]) hk hp hd hlow]
    simp [State.handleAt, hsl, slotNone, optField]
  · refine serve_acked hs rfl ((ownSlot_station s st).trans ?_)
    rw [allocSlot_fetch hroom, returnFetch_none hno, State.slotFetch, hscan]
    rfl
  · have hfetch : ownSlot (stationCode st) s = s.slotFetch st := by
      rw [ownSlot_station, allocSlot_fetch hroom, returnFetch_none hno]
    have hbin : ∀ b', some b = some b' → (s.bin b').order = none := by
      rintro b' ⟨⟩
      exact returnScan_free hn hb
    rw [slotFetch_found hn hb] at hfetch
    refine ⟨fun hw => serve_refused hs rfl (hfetch.trans ?_), fun hw hi => serve_refused hs rfl (hfetch.trans ?_), ?_⟩
    · rw [creationRefusal_held (k := .fetch) hbin (by decide) hw]
      rfl
    · rw [creationRefusal_full .fetch hbin (.inl hw) hi]
      rfl
    · rintro i g hw hi rfl
      refine serve_acked hs rfl (hfetch.trans ?_)
      rw [creationRefusal_none .fetch hbin (.inl hw) hi]
      simp only [create_eq hi]
      rw [returnOrder, fillSlot_fetch]
      rfl
  · rintro s st good scan hcase passes rfl
    rcases hcase with ⟨rfl, hgood⟩ | ⟨rfl, hgood⟩
    · refine stationScan_iff (p := s.destAccepts st) fun n => ?_
      rw [hgood, destAccepts_iff, stationOk_iff]
    · refine stationScan_iff (p := s.returnAccepts st) fun n => ?_
      rw [hgood, returnAccepts_iff, stationOk_iff]
  · rintro s c here passes rank hhere rfl rfl
    have hsegment : s.currentSegment c = here := (currentSegment_eq s c).trans hhere.symm
    have hpass : ∀ n, n < 3840 ∧ s.homeAccepts c n = true ↔
        n < 3840 ∧ (s.cell n).state = .empty ∧ (s.zone (zoneOfCell n)).state = .inService ∧
          (s.seg (1 + n / 96)).holder ≠ some (otherCrane c) ∧
          ∀ k, k < 3 → (s.shutter k).state ≠ .open → (here ≤ 10 * k + 10 ↔ 1 + n / 96 ≤ 10 * k + 10) := fun n => by
      rw [homeAccepts_iff, hsegment]
    have hscan := (homeScan_leastBy s c).congr hpass fun n m _ _ h => h
    rw [hsegment] at hscan
    exact hscan.iff fun n m hn hm e => homeRank_inj hn.1 hm.1 e

end Sys2Proof.Machine

end

/-! # TAG (O43), and the wing hold (O46) -/

section

namespace Sys2Proof.Machine

/-! ## The result of a TAG (R157 to R160) -/

/-- The bins of a TAG whose live orders fail are those it took from another place to MISPLACED. -/
theorem failTagged_eq (s t : State) (bins : List Nat) :
    s.failTagged t bins =
      (bins.filter fun b => decide ((s.bin b).place ≠ .misplaced ∧ (t.bin b).place = .misplaced)).foldl
        (fun v b => v.failMisplaced none b) t := by
  rw [List.foldl_filter]
  simp [State.failTagged]

@[simp] theorem raise_bin (s : State) (p : Port) (x : Notice) (b : Nat) : (s.raise p x).bin b = s.bin b := by
  simp [State.raise]

@[simp] theorem raise_cell (s : State) (p : Port) (x : Notice) (n : Nat) : (s.raise p x).cell n = s.cell n := by
  simp [State.raise]

/-- The suspicion of an occupied cell moves its bin alone. -/
theorem enterSuspect_place {s : State} {n b : Nat} (h : (s.cell n).state = .occupied b) (m : Nat) :
    ((s.enterSuspect n).bin m).place = if m = b then .misplaced else (s.bin m).place := by
  rw [enterSuspect_occupied h]
  simp only [raise_bin, State.setCell_bin, State.setBin_bin]
  split <;> rfl

theorem enterSuspect_bin_free {s : State} {n : Nat} (h : ∀ b, (s.cell n).state ≠ .occupied b) (m : Nat) :
    (s.enterSuspect n).bin m = s.bin m := by
  by_cases hs : (s.cell n).state = .suspect
  · rw [State.enterSuspect, if_pos hs]
  · rw [enterSuspect_free hs h]
    simp

/-- One row of R158 and R159: the state after the result, whether it was applied, and the bins it made MISPLACED. -/
structure TagRow (s : State) (n : Nat) (r : TagResult) (t : State) (applied : Bool) (lost : List Nat) : Prop where
  result : s.applyResult n r = t
  applies : (s.cell n).state.tagApplies = applied
  fails : s.failTagged t (tagBins (s.cell n).state r) = lost.foldl (fun v b => v.failMisplaced none b) t

/-- A row that makes no bin MISPLACED. -/
theorem TagRow.unmoved {s t : State} {n : Nat} {r : TagResult} {applied : Bool} (h : s.applyResult n r = t)
    (ha : (s.cell n).state.tagApplies = applied)
    (hb : ∀ b, (t.bin b).place = .misplaced → (s.bin b).place = .misplaced) : TagRow s n r t applied [] := by
  refine ⟨h, ha, ?_⟩
  rw [failTagged_eq, List.filter_eq_nil_iff.mpr fun b _ => ?_]
  simpa using fun hs ht => hs (hb b ht)

/-- A row that makes SUSPECT a cell OCCUPIED by a bin STORED there, and no other. -/
theorem TagRow.suspect {s : State} {n b : Nat} {r : TagResult} (hc : (s.cell n).state = .occupied b)
    (hb : (s.bin b).place = .stored n) (h : s.applyResult n r = s.enterSuspect n) :
    TagRow s n r (s.enterSuspect n) true [b] := by
  refine ⟨h, by simp [hc, CellState.tagApplies], ?_⟩
  rw [failTagged_eq]
  simp only [enterSuspect_place hc]
  cases r with
  | noBin => simp [tagBins, hc, CellState.bin, hb]
  | unreadable => simp [tagBins, hc, CellState.bin, hb]
  | tag b' =>
    by_cases hbb : b' = b
    · subst hbb
      simp [State.applyResult, hc, CellState.tagApplies, State.applyTag] at h
      have := congrArg (fun u => (u.bin b').place) h
      simp [enterSuspect_place hc, State.stampCell, hb] at this
    · simp [tagBins, hc, CellState.bin, hb, hbb]

/-- A tag of a bin STORED in another cell makes both cells SUSPECT (R158). -/
theorem TagRow.both {s : State} {n m b b' : Nat} (hc : (s.cell n).state = .occupied b) (hb : (s.bin b).place = .stored n)
    (hne : b' ≠ b) (hb' : (s.bin b').place = .stored m) (hm : m ≠ n) (hc' : (s.cell m).state = .occupied b') :
    TagRow s n (.tag b') ((s.enterSuspect n).enterSuspect m) true [b, b'] := by
  have hcell : ((s.enterSuspect n).cell m).state = .occupied b' := by
    rw [enterSuspect_occupied hc]
    simp [State.setCell_cell, hm, hc']
  refine ⟨?_, by simp [hc, CellState.tagApplies], ?_⟩
  · simp [State.applyResult, hc, CellState.tagApplies, State.applyTag, Ne.symm hne, State.tagMismatch, enterSuspect_place hc, hne,
      hb', hm]
  · rw [failTagged_eq]
    simp [enterSuspect_place hcell, enterSuspect_place hc, tagBins, hc, CellState.bin, hb, hb']

/-- A tag of a bin that is STORED in no other cell makes the OCCUPIED cell alone SUSPECT (R158). -/
theorem tagMismatch_alone {s : State} {n b b' : Nat} (hc : (s.cell n).state = .occupied b) (hne : b' ≠ b)
    (h : ∀ m, (s.bin b').place ≠ .stored m) : s.tagMismatch n b' = s.enterSuspect n := by
  have hp : ((s.enterSuspect n).bin b').place = (s.bin b').place := by rw [enterSuspect_place hc, if_neg hne]
  unfold State.tagMismatch
  simp only [hp]
  split
  · next m hm => exact absurd hm (h m)
  all_goals rfl

theorem exec_tag_acked {s t : State} {p : Port} {c : Crane} {i g : Nat} {o : Order} {n : Nat} {r : TagResult} {applied : Bool}
    {lost : List Nat} (hs : s.serves p) (hp : craneOfPort p = some c) (hi : i < 64) (ha : (s.crane c).active = some ⟨i, g⟩)
    (hsl : s.slot i = ⟨g, some o⟩) (hsrc : o.source = .cell n) (hk : o.kind = .verify) (hd : o.state = .dispatched)
    (hr : ∀ b, r = .tag b → b < 4096) (row : TagRow s n r t applied lost) :
    let u := (lost.foldl (fun v b => v.failMisplaced none b) t).endOrder i .complete none
    exec (.tag p i g r) s =
      .next (acked s p .tag
        ([.indication false, .num 2 n, .named (u.cell n).state.code, .indication applied] ++
          optField (.num 2) (u.cell n).state.bin) u) := by
  refine serve_acked hs (crane_taken hp (by decide)) ((ownTag_eq hp g hi (okResult_of hr) s).trans ?_)
  simp only [State.tag, activeOrder_eq ha hsl, hsrc, Place.cellOf]
  rw [if_pos ⟨hk, hd⟩, row.result, row.fails, row.applies]

theorem tag_refused {s : State} {c : Crane} {i g : Nat} {o : Order} {r : TagResult} (ha : (s.crane c).active = some ⟨i, g⟩)
    (hsl : s.slot i = ⟨g, some o⟩) (h : o.kind ≠ .verify ∨ o.state ≠ .dispatched) :
    s.tag c ⟨i, g⟩ r = refuse s .orderState := by
  simp only [State.tag, activeOrder_eq ha hsl]
  split
  · rfl
  · rw [if_neg (fun hkd => h.elim (absurd hkd.1) (absurd hkd.2))]

/-- The rows of R158 for a cell OCCUPIED by a bin STORED there. -/
theorem tagRow_occupied {s t : State} {n b : Nat} {r : TagResult} {lost : List Nat} (hc : (s.cell n).state = .occupied b)
    (hb : (s.bin b).place = .stored n)
    (h : (r = .tag b ∧ b < 4096 ∧ lost = [] ∧ t = s.setCell n { s.cell n with stamp := some s.sched.epoch, unread := 0 } ∨
        lost = [b] ∧ t = s.enterSuspect n ∧
          (r = .noBin ∨ r = .unreadable ∧ (s.cell n).unread ≠ 0 ∨
            ∃ b', r = .tag b' ∧ b' < 4096 ∧ b' ≠ b ∧ ∀ m, (s.bin b').place ≠ .stored m) ∨
        ∃ b' m, r = .tag b' ∧ b' < 4096 ∧ b' ≠ b ∧ (s.bin b').place = .stored m ∧ m ≠ n ∧
          (s.cell m).state = .occupied b' ∧ lost = [b, b'] ∧ t = (s.enterSuspect n).enterSuspect m)) :
    (∀ b, r = .tag b → b < 4096) ∧ TagRow s n r t true lost := by
  have happ : (s.cell n).state.tagApplies = true := by simp [hc, CellState.tagApplies]
  rcases h with ⟨rfl, hlt, rfl, rfl⟩ | ⟨rfl, rfl, h⟩ | ⟨b', m, rfl, hlt, hne, hb', hm, hc', rfl, rfl⟩
  · refine ⟨by simpa using hlt, .unmoved ?_ happ (by simp)⟩
    simp [State.applyResult, hc, CellState.tagApplies, State.applyTag, State.stampCell]
  · rcases h with rfl | ⟨rfl, hu⟩ | ⟨b', rfl, hlt, hne, hno⟩
    · exact ⟨by simp, .suspect hc hb (by simp [State.applyResult, hc, CellState.tagApplies, State.applyNoBin])⟩
    · exact ⟨by simp, .suspect hc hb (by simp [State.applyResult, hc, CellState.tagApplies, State.unreadable, hu])⟩
    · refine ⟨by simpa using hlt, .suspect hc hb ?_⟩
      simp [State.applyResult, hc, CellState.tagApplies, State.applyTag, Ne.symm hne, tagMismatch_alone hc hne hno]
  · exact ⟨by simpa using hlt, .both hc hb hne hb' hm hc'⟩

/-- A bin is registered in an UNVERIFIED cell: the cell's three fields are new (R158). -/
theorem registerBin_eq (s : State) (n b : Nat) :
    s.registerBin n b =
      (s.setBin b { s.bin b with place := .stored n, comps := List.replicate 16 .occupied }).setCell n
        ⟨.occupied b, some s.sched.epoch, 0⟩ := by
  simp [State.registerBin, State.stampCell, State.cellTo, Cell.toState]

/-- The rows of R158 for a cell that records no bin. -/
theorem tagRow_unoccupied {s t : State} {n : Nat} {r : TagResult}
    (h : (s.cell n).state = .empty ∧ (∃ b', r = .tag b' ∧ b' < 4096) ∧ t = s.enterSuspect n ∨
      (s.cell n).state = .empty ∧ r = .noBin ∧ t = s.setCell n { s.cell n with stamp := some s.sched.epoch, unread := 0 } ∨
      (s.cell n).state = .unverified ∧
        (∃ b', r = .tag b' ∧ b' < 4096 ∧ (s.bin b').place = .unregistered ∧
          t = (s.setBin b' { s.bin b' with place := .stored n, comps := List.replicate 16 .occupied }).setCell n
            ⟨.occupied b', some s.sched.epoch, 0⟩) ∨
      (s.cell n).state = .unverified ∧ (∃ b', r = .tag b' ∧ b' < 4096 ∧ (s.bin b').place ≠ .unregistered) ∧ t = s.enterSuspect n ∨
      (s.cell n).state = .unverified ∧ r = .noBin ∧ t = s.setCell n ⟨.empty, some s.sched.epoch, 0⟩) :
    (∀ b, r = .tag b → b < 4096) ∧ TagRow s n r t true [] := by
  have happ : ∀ {x}, (s.cell n).state = x → x = .empty ∨ x = .unverified → (s.cell n).state.tagApplies = true := by
    rintro x hx (rfl | rfl) <;> rw [hx] <;> rfl
  have hfree : (s.cell n).state = .empty ∨ (s.cell n).state = .unverified → ∀ b, (s.cell n).state ≠ .occupied b := by
    rintro (h | h) b <;> simp [h]
  rcases h with ⟨hc, ⟨b', rfl, hlt⟩, rfl⟩ | ⟨hc, rfl, rfl⟩ | ⟨hc, b', rfl, hlt, hpl, rfl⟩ | ⟨hc, ⟨b', rfl, hlt, hpl⟩, rfl⟩ |
    ⟨hc, rfl, rfl⟩
  · refine ⟨by simpa using hlt, .unmoved ?_ (happ hc (.inl rfl)) fun b => by rw [enterSuspect_bin_free (hfree (.inl hc))]; exact id⟩
    simp [State.applyResult, hc, CellState.tagApplies, State.applyTag]
  · exact ⟨by simp, .unmoved (by simp [State.applyResult, hc, CellState.tagApplies, State.applyNoBin, State.stampCell])
      (happ hc (.inl rfl)) (by simp)⟩
  · refine ⟨by simpa using hlt, .unmoved ?_ (happ hc (.inr rfl)) fun b => ?_⟩
    · simp [State.applyResult, hc, CellState.tagApplies, State.applyTag, hpl, registerBin_eq]
    · simp only [State.setCell_bin, State.setBin_bin]
      split
      · exact fun e => by cases e
      · exact id
  · refine ⟨by simpa using hlt, .unmoved ?_ (happ hc (.inr rfl)) fun b => by rw [enterSuspect_bin_free (hfree (.inr hc))]; exact id⟩
    simp [State.applyResult, hc, CellState.tagApplies, State.applyTag, hpl]
  · exact ⟨by simp, .unmoved (by simp [State.applyResult, hc, CellState.tagApplies, State.applyNoBin, State.stampCell,
      State.cellTo, Cell.toState]) (happ hc (.inr rfl)) (by simp)⟩

/-- The rows of R159: UNREADABLE on a cell that takes the result without losing a bin. -/
theorem tagRow_unreadable {s t : State} {n : Nat}
    (h : (s.cell n).unread = 0 ∧ t = s.setCell n { s.cell n with unread := 1 } ∧
        ((s.cell n).state = .empty ∨ (s.cell n).state = .unverified ∨ ∃ b, (s.cell n).state = .occupied b) ∨
      (s.cell n).unread ≠ 0 ∧ t = s.enterSuspect n ∧ ((s.cell n).state = .empty ∨ (s.cell n).state = .unverified)) :
    TagRow s n .unreadable t true [] := by
  have happ : (s.cell n).state.tagApplies = true := by
    rcases h with ⟨-, -, h | h | ⟨b, h⟩⟩ | ⟨-, -, h | h⟩ <;> rw [h] <;> rfl
  rcases h with ⟨hu, rfl, -⟩ | ⟨hu, rfl, h⟩
  · exact .unmoved (by simp [State.applyResult, happ, State.unreadable, hu]) happ (by simp)
  · refine .unmoved (by simp [State.applyResult, happ, State.unreadable, hu]) happ fun b => ?_
    rw [enterSuspect_bin_free fun b => by rcases h with h | h <;> simp [h]]
    exact id

/-- Settles O43: the rows of R158 and R159 each give the result, and R160 the orders that fail. -/
theorem tagAppliesTheResult : Obligations.TagAppliesTheResult := by
  refine ⟨fun s p c i g o n hs hp hi ha hsl => ⟨fun r t applied lost hsrc hk hd h u hu => ?_, fun h r hr => ?_, fun b hb => ?_⟩,
    fun u b i g q hb hsl => ?_⟩
  · subst hu
    have hrow : (∀ b, r = .tag b → b < 4096) ∧ TagRow s n r t applied lost := by
      rcases h with ⟨rfl, ⟨b, hc, hb, h⟩ | ⟨rfl, h⟩⟩ | ⟨rfl, rfl, rfl, hr, h⟩
      · exact tagRow_occupied hc hb h
      · rcases h with h | h | h | h | h | ⟨rfl, h⟩ | ⟨rfl, h⟩
        · exact tagRow_unoccupied (.inl h)
        · exact tagRow_unoccupied (.inr (.inl h))
        · exact tagRow_unoccupied (.inr (.inr (.inl h)))
        · exact tagRow_unoccupied (.inr (.inr (.inr (.inl h))))
        · exact tagRow_unoccupied (.inr (.inr (.inr (.inr h))))
        · exact ⟨by simp, tagRow_unreadable (.inl h)⟩
        · exact ⟨by simp, tagRow_unreadable (.inr h)⟩
      · have happ : (t.cell n).state.tagApplies = false := by
          rcases h with ⟨x, h⟩ | h | h <;> rw [h] <;> rfl
        exact ⟨hr, .unmoved (by simp [State.applyResult, happ]) happ (fun b => id)⟩
    exact exec_tag_acked hs hp hi ha hsl hsrc hk hd hrow.1 hrow.2
  · exact serve_refused hs (crane_taken hp (by decide))
      ((ownTag_eq hp g hi (okResult_of hr) s).trans (tag_refused ha hsl h))
  · have hok : okResult (.tag b) = false := by simpa [okResult, okBin] using hb
    exact serve_refused hs (crane_taken hp (by decide)) (by simp [ownTag, hok, refuse])
  · split
    · next hq => simp [State.failMisplaced, State.slotOfBin, hb, orderOf_live hsl, hsl, hq]
    · next hq => exact failMisplaced_other hb (by simp) hsl hq

/-! ## The wing hold (R161, R162) -/

theorem okZoneSet_iff (l : List Nat) : okZoneSet l = true ↔ l.Nodup ∧ ∀ z ∈ l, z < 4 := by
  have hzone : ∀ z, okZone z = true ↔ z < 4 := fun z => by simp [okZone]
  simp only [okZoneSet, Bool.and_eq_true, decide_eq_true_eq, List.all_eq_true, hzone]
  refine ⟨fun ⟨⟨_, h⟩, hn⟩ => ⟨hn, h⟩, fun ⟨hn, h⟩ => ⟨⟨?_, h⟩, hn⟩⟩
  simpa using (hn.subperm fun j hj => List.mem_range.mpr (h j hj) : l.Subperm (List.range 4)).length_le

theorem canonicalZones_iff {l : List Nat} (h : ∀ z ∈ l, z < 4) (z : Nat) : z ∈ canonicalZones l ↔ z ∈ l := by
  have hzones : zoneNumbers = List.range 4 := rfl
  simp only [canonicalZones, hzones, List.mem_filter, List.mem_range, List.contains_iff_mem]
  exact ⟨fun hz => hz.2, fun hz => ⟨h z hz, hz⟩⟩

theorem canonicalZones_ascending (l : List Nat) : (canonicalZones l).Pairwise (· < ·) := by
  have hzones : zoneNumbers = List.range 4 := rfl
  rw [canonicalZones, hzones]
  exact List.pairwise_lt_range.filter _

theorem wingIdle_iff (s : State) :
    s.wingIdle = true ↔
      (∀ i o, i < 64 → (s.slot i).order = some o → o.kind = .verify) ∧ ∀ c, (s.crane c).dN8 = 0 := by
  simp only [State.wingIdle, Bool.and_eq_true, List.all_eq_true, Prod.forall, mem_liveOrders, beq_iff_eq, and_imp, and_assoc,
    forall_crane]
  rfl

/-- A crane that the end of an event evaluates, and that waits with an eligible order, is told and waits no more. -/
theorem conclude_told {s u : State} {p : Port} {k : Kind} {f : List Field} {x : Crane} (hk : k ≠ .assign) (hx : portOf x ≠ p)
    (hw : (u.crane x).waiting = true) (ho : (u.crane x).orphan = false) (ha : (u.crane x).active = none)
    (he : u.eligibleOrders x ≠ []) :
    (conclude s p k true (u, .ack f)).crane x = { u.crane x with waiting := false } ∧
      (conclude s p k true (u, .ack f)).port (portOf x) =
        ((u.port (portOf x)).offer (.wait x (u.eligibleOrders x).length)).pump := by
  obtain ⟨hc, hq⟩ := evalCranes_each s (u.respond p (Reply.message k (.ack f))) true false false x
  have hel : (u.respond p (Reply.message k (.ack f))).eligibleOrders x = u.eligibleOrders x := by
    rw [← eligibleOrders_still, still_respond, eligibleOrders_still]
  have hcr : (u.respond p (Reply.message k (.ack f))).crane x = u.crane x := by simp [State.respond]
  have hport : (u.respond p (Reply.message k (.ack f))).port (portOf x) = u.port (portOf x) := by
    simp [State.respond, State.setPort_port, hx]
  have hwait : ((u.respond p (Reply.message k (.ack f))).crane x).isWaiting = true := by simp [hcr, CraneRec.isWaiting, hw, ho, ha]
  have htold := evalWaiting_told (b := if x = .A then false else false) hwait
    (.inr (by rw [hel]; exact List.length_pos_iff.mpr he))
  simp only [conclude, if_neg hk, Reply.isAck, Bool.and_true, pump_crane, pump_port]
  rw [hc, hq, evalAsked, if_pos (by simp), htold]
  simp [raise_port_same, hel, hcr, hport]

/-- Settles O46: the set is checked, then the wing; the held wing tells each waiting crane with work. -/
theorem wholdAndWresSetTheWing : Obligations.WholdAndWresSetTheWing := by
  intro s zones hs
  refine ⟨fun hn hz => ⟨fun hv hd => ?_, fun h => ?_⟩, fun h => ?_, serve_acked hs rfl rfl⟩
  · refine ⟨canonicalZones zones, _, _, canonicalZones_iff hz, canonicalZones_ascending zones, rfl, rfl, ?_, ?_⟩
    · have hown : ownWhold zones s =
          (s.setSched { s.sched with wing := .held, verifySet := canonicalZones zones },
            .ack [.named 1, .zoneSet (canonicalZones zones)]) := by
        simp [ownWhold, (okZoneSet_iff zones).mpr ⟨hn, hz⟩, (wingIdle_iff s).mpr ⟨hv, hd⟩, WingState.code]
      have hexec : exec (.whold .S zones) s = serve .S .whold bodyZones zones ownWhold true s := rfl
      rw [hexec, serve_direct hs, answer_taken rfl, hown]
    · intro x hw ho ha he
      exact conclude_told (by decide) (portOf_ne_S x) hw ho ha he
  · have hidle : s.wingIdle = false := by
      rw [← Bool.not_eq_true, wingIdle_iff]
      rintro ⟨hv, hd⟩
      rcases h with ⟨i, o, hi, ho, hk⟩ | ⟨c, hc⟩
      · exact hk (hv i o hi ho)
      · exact hc (hd c)
    exact serve_refused hs rfl (by simp [ownWhold, (okZoneSet_iff zones).mpr ⟨hn, hz⟩, hidle, refuse])
  · have hset : okZoneSet zones = false := by
      rw [← Bool.not_eq_true, okZoneSet_iff]
      rintro ⟨hn, hz⟩
      rcases h with h | ⟨z, hmem, hge⟩
      · exact h hn
      · exact absurd (hz z hmem) (by omega)
    exact serve_refused hs rfl (by simp [ownWhold, hset, refuse])

end Sys2Proof.Machine

end

/-! # The verification cursor (O44) and the interval expiry (O45) -/

section

namespace Sys2Proof.Machine

/-! ## The cursor's search (R150, R151) -/

theorem verifyLive_iff (s : State) (n : Nat) :
    s.verifyLive n = false ↔ ∀ i o, i < 64 → (s.slot i).order = some o → o.kind = .verify → o.source ≠ .cell n := by
  simp only [State.verifyLive, List.any_eq_false, Prod.forall, mem_liveOrders, Bool.and_eq_true, beq_iff_eq, not_and, and_imp]

theorem visitable_iff (s : State) (n : Nat) :
    s.visitable n = true ↔ (s.cell n).state = .unverified ∨ (s.cell n).state = .empty ∨
      ∃ b, (s.cell n).state = .occupied b ∧ (s.bin b).order = none := by
  unfold State.visitable
  cases (s.cell n).state with
  | occupied b => simp
  | unverified => simp
  | empty => simp
  | reserved h => simp
  | suspect => simp
  | blocked => simp

theorem cursorTakes_iff (s : State) (n : Nat) :
    s.cursorTakes n = true ↔
      ((s.cell n).state = .unverified ∨ (s.cell n).state = .empty ∨ ∃ b, (s.cell n).state = .occupied b ∧ (s.bin b).order = none) ∧
      (s.zone (zoneOfCell n)).state = .inService ∧ (s.sched.wing = .held → zoneOfCell n ∈ s.sched.verifySet) ∧
      ∀ i o, i < 64 → (s.slot i).order = some o → o.kind = .verify → o.source ≠ .cell n := by
  have hwing : (s.sched.wing != .held || s.sched.verifySet.contains (zoneOfCell n)) = true ↔
      (s.sched.wing = .held → zoneOfCell n ∈ s.sched.verifySet) := by
    cases s.sched.wing <;> simp
  rw [State.cursorTakes, Bool.and_eq_true, Bool.and_eq_true, Bool.and_eq_true, visitable_iff, State.zoneOk, inService_iff, hwing,
    Bool.not_eq_true', verifyLive_iff, and_assoc, and_assoc]

/-- The rank of a position in the search from the cursor: from the cursor up, and then from 0. -/
def cursorRank (cursor size j : Nat) : Nat := if cursor ≤ j then j else size + j

theorem cursorSearch_leastBy (s : State) (x : Crane) :
    LeastBy (s.cursorSearch x) (fun j => j < s.shareSize x ∧ s.cursorTakes (s.shareFirst x + j) = true)
      (cursorRank (s.schedCrane x).cursor (s.shareSize x)) := by
  let cur := (s.schedCrane x).cursor
  let size := s.shareSize x
  let p := fun j => s.cursorTakes (s.shareFirst x + j)
  have hup : LeastBy (findUp p cur (size - cur)) (fun j => (cur ≤ j ∧ j < size) ∧ p j = true) (cursorRank cur size) :=
    (findUp_leastBy p cur (size - cur)).congr (fun j => and_congr_left fun _ => by omega)
      (fun j k hj hk h => by simp only [cursorRank]; split <;> split <;> omega)
  have hagain : LeastBy (findUp p 0 (min cur size)) (fun j => (j < cur ∧ j < size) ∧ p j = true) (cursorRank cur size) :=
    (findUp_leastBy p 0 (min cur size)).congr (fun j => and_congr_left fun _ => by omega)
      (fun j k hj hk h => by simp only [cursorRank]; split <;> split <;> omega)
  refine (hup.orElse hagain fun j k hj hk => ?_).congr (fun j => ?_) (fun j k _ _ h => h)
  · simp only [cursorRank]
    split <;> split <;> omega
  · have : (cur ≤ j ∧ j < size ∨ j < cur ∧ j < size) ↔ j < size := by omega
    rw [← or_and_right, this]

theorem cursorRank_inj {cur size j k : Nat} (hj : j < size) (hk : k < size) (h : cursorRank cur size j = cursorRank cur size k) :
    j = k := by
  simp only [cursorRank] at h
  split at h <;> split at h <;> omega

/-! ## The cursor's move (R152 to R154) -/

/-- The move of the cursor (R152): where both cranes' wrap marks come to be set, the epoch advances and both clear. -/
theorem moveCursor_eq (s : State) (x : Crane) (k : Nat) {wrapped : Bool}
    (h : wrapped = ((s.schedCrane x).wrap || decide (s.cursorAfter x k ≤ (s.schedCrane x).cursor))) :
    s.moveCursor x k =
      if wrapped && (s.schedCrane (otherCrane x)).wrap then
        ((s.setSchedCrane x { s.schedCrane x with cursor := s.cursorAfter x k, wrap := false }).setSchedCrane (otherCrane x)
          { s.schedCrane (otherCrane x) with wrap := false }).setSched
          { ((s.setSchedCrane x { s.schedCrane x with cursor := s.cursorAfter x k, wrap := false }).setSchedCrane (otherCrane x)
            { s.schedCrane (otherCrane x) with wrap := false }).sched with epoch := s.sched.epoch + 1 }
      else s.setSchedCrane x { s.schedCrane x with cursor := s.cursorAfter x k, wrap := wrapped } := by
  rw [State.moveCursor]
  simp only [← h]
  cases x with
  | A => rfl
  | B =>
    rw [State.advanceEpoch, Bool.and_comm wrapped]
    rfl

theorem lag_below (lag : Bool) (c : Nat) : (if c < 8 then false else lag) = (lag && decide (8 ≤ c)) := by
  by_cases h : c < 8
  · simp [h, Nat.not_le.mpr h]
  · simp [h, Nat.not_lt.mp h]

/-- Settles O44: the search by rank; the move by both wrap marks. -/
theorem theCursorVisitsTheShare : Obligations.TheCursorVisitsTheShare := by
  refine ⟨?_, ?_⟩
  · rintro s x first size hx takes rank rfl rfl
    have hfirst : s.shareFirst x = first ∧ s.shareSize x = size := by
      rcases hx with ⟨rfl, rfl, rfl⟩ | ⟨rfl, rfl, rfl⟩ <;> exact ⟨rfl, rfl⟩
    have hsearch := cursorSearch_leastBy s x
    simp only [hfirst.1, hfirst.2, cursorTakes_iff] at hsearch
    exact hsearch.iff fun j k hj hk e => cursorRank_inj hj.1 hk.1 e
  · rintro s x k r r' rfl rfl next wrapped hnext hwrapped
    have hafter : s.cursorAfter x k = next := hnext.symm
    rw [moveCursor_eq s x k (wrapped := wrapped) (by rw [hafter, hwrapped]), hafter]
    by_cases hboth : (wrapped && (s.schedCrane (otherCrane x)).wrap) = true
    · obtain ⟨hw, hw'⟩ := Bool.and_eq_true_iff.mp hboth
      simp only [hw, hw', Bool.and_self, Bool.not_true, Bool.and_false, if_true, State.spendCredit, lag_below]
      cases x <;> rfl
    · have hbit : (wrapped && !(s.schedCrane (otherCrane x)).wrap) = wrapped ∧
          ((s.schedCrane (otherCrane x)).wrap && !wrapped) = (s.schedCrane (otherCrane x)).wrap := by
        revert hboth
        cases wrapped <;> simp
      simp only [if_neg hboth, hbit.1, hbit.2, State.spendCredit, lag_below]
      cases x <;> rfl

/-! ## The interval expiry (R153, R154) -/

theorem setSchedCrane_self (s : State) (x : Crane) : s.setSchedCrane x (s.schedCrane x) = s := by cases x <;> rfl

theorem setLag_eq (s : State) (x : Crane) (cause : VlagCause) :
    s.setLag x cause =
      if (s.schedCrane x).lag = true then s
      else (s.setSchedCrane x { s.schedCrane x with lag := true }).raise .S (.vlag x (s.schedCrane x).credits cause) := by
  unfold State.setLag
  dsimp only
  split
  · next h =>
    have hself : { s.schedCrane x with lag := true } = s.schedCrane x := by rw [← h]
    rw [hself, setSchedCrane_self]
  · rfl

theorem urgentLive_iff (s : State) (x : Crane) :
    s.urgentLive x = true ↔
      ∃ i o, i < 64 ∧ (s.slot i).order = some o ∧ o.kind = .verify ∧ o.crane = x ∧ o.authority = 1 := by
  simp only [State.urgentLive, List.any_eq_true, Prod.exists, mem_liveOrders, Bool.and_eq_true, beq_iff_eq, and_assoc]

/-- The end of an event that added a credit to a waiting crane tells it, whatever is eligible (R76). -/
theorem evalCranes_credited {s t : State} {a b : Bool} {x : Crane} (hcredit : (if x = .A then a else b) = true)
    (hw : (t.crane x).waiting = true) (ho : (t.crane x).orphan = false) (ha : (t.crane x).active = none) :
    (evalCranes s t false a b).pump.crane x = { t.crane x with waiting := false } ∧
      (evalCranes s t false a b).pump.port (portOf x) =
        ((t.port (portOf x)).offer (.wait x (t.eligibleOrders x).length)).pump := by
  have hwait : (t.crane x).isWaiting = true := by simp [CraneRec.isWaiting, hw, ho, ha]
  obtain ⟨hc, hp⟩ := evalCranes_each s t false a b x
  rw [pump_crane, pump_port, hc, hp, hcredit, evalAsked, if_pos (by simp), evalWaiting_told hwait (.inl rfl)]
  simp [raise_port_same]

/-- Settles O45: the credits by their number, the attempt by what it finds, the end of the event crane by crane. -/
theorem theIntervalGrantsCredits : Obligations.TheIntervalGrantsCredits := by
  refine ⟨fun s hs => ⟨_, _, rfl, whenRunning_run hs, ?_, fun p => ?_, fun x hx hw ho ha => ?_⟩, fun s x => ⟨fun h => ?_, fun h => ?_⟩, ?_⟩
  · simp [SameBlocks, State.restartInterval]
  · obtain ⟨h, -, -⟩ := evalCranes_kept s ((s.restartInterval.intervalCrane .A).intervalCrane .B) false
      (decide (s.sched.a.credits < 8)) (decide (s.sched.b.credits < 8)) p
    rw [pump_port, pump_receiver, h]
    rfl
  · refine evalCranes_credited ?_ hw ho ha
    cases x <;> simpa [State.schedCrane] using hx
  · simp only [State.intervalCrane, if_pos h, Nat.reduceEqDiff]
    split
    · next h7 => rw [h7]
    · rfl
  · simp only [State.intervalCrane, if_neg (Nat.not_lt.mpr h)]
  · rintro s lagged x live hlive rfl
    rw [← urgentLive_iff] at hlive
    refine ⟨fun h => ?_, fun h hnone => ?_, fun k n h hk hn => ⟨fun hfull => ?_, fun i g hi hg => ?_⟩⟩
    · rw [State.attemptUrgent, if_pos (hlive.mp h), setLag_eq]
    all_goals rw [State.attemptUrgent, if_neg (fun hu => h (hlive.mpr hu))]
    · rw [hnone]
    · simp only [hk, createVerify_full x k 1 hfull, setLag_eq]
    · simp only [hk, createVerify_eq x k 1 hi, hn, hg]
      rfl

end Sys2Proof.Machine

end

/-! # Zones and shutters: what a change of state does, and the zones that follow (O50) -/

section

namespace Sys2Proof.Machine

/-! ## Notices to several ports, and a zone's new state -/

theorem raiseAll_leaves {β : Type} {g : State → β} (hport : ∀ u p q, g (u.setPort p q) = g u) (s : State) (l : List Port)
    (n : Notice) : g (s.raiseAll l n) = g s := foldl_leaves g (fun u _ => hport u _ _) l s

theorem raiseAll_receiver (s : State) (l : List Port) (n : Notice) (p : Port) :
    ((s.raiseAll l n).port p).receiver = (s.port p).receiver :=
  foldl_leaves (fun u => (u.port p).receiver) (fun u q => (raise_kept u q n p).1) l s

theorem zoneTo_leaves {β : Type} {g : State → β} (hport : ∀ u p q, g (u.setPort p q) = g u)
    (hzone : ∀ u z r, g (u.setZone z r) = g u) (s : State) (z : Nat) (x : ZoneState) : g (s.zoneTo z x) = g s :=
  (raiseAll_leaves hport _ _ _).trans (hzone ..)

@[simp] theorem zoneTo_shutter (s : State) (z : Nat) (x : ZoneState) (k : Nat) : (s.zoneTo z x).shutter k = s.shutter k :=
  zoneTo_leaves (g := fun u => u.shutter k) (by simp) (by simp) s z x

@[simp] theorem zoneTo_loop (s : State) (z : Nat) (x : ZoneState) (k : Nat) : (s.zoneTo z x).loop k = s.loop k :=
  zoneTo_leaves (g := fun u => u.loop k) (by simp) (by simp) s z x

@[simp] theorem zoneTo_seg (s : State) (z : Nat) (x : ZoneState) (n : Nat) : (s.zoneTo z x).seg n = s.seg n :=
  zoneTo_leaves (g := fun u => u.seg n) (by simp) (by simp) s z x

@[simp] theorem unsealZone_shutter (s : State) (z k : Nat) : (s.unsealZone z).shutter k = s.shutter k :=
  unsealZone_leaves (g := fun u => u.shutter k) (by simp) s z

@[simp] theorem unsealZone_loop (s : State) (z k : Nat) : (s.unsealZone z).loop k = s.loop k :=
  unsealZone_leaves (g := fun u => u.loop k) (by simp) s z

@[simp] theorem unsealZone_zone (s : State) (z k : Nat) : (s.unsealZone z).zone k = s.zone k :=
  unsealZone_leaves (g := fun u => u.zone k) (by simp) s z

theorem isFault_iff (x : LoopClass) : x.isFault = true ↔ x = .openFault ∨ x = .shortFault := by cases x <;> decide

/-- The shutters of a zone of the wing (R6). -/
theorem mem_zoneShutters (z k : Nat) : k ∈ zoneShutters z ↔ k < 3 ∧ (z = k ∨ z = k + 1) := by
  have hrange : shutterNumbers = List.range 3 := rfl
  simp only [zoneShutters, hrange, List.mem_filter, List.mem_range, decide_eq_true_eq]
  omega

theorem allShutters_iff (s : State) (z : Nat) (x : ShutterState) :
    s.allShutters z x = true ↔ ∀ k, k < 3 → (z = k ∨ z = k + 1) → (s.shutter k).state = x := by
  simp only [State.allShutters, List.all_eq_true, mem_zoneShutters, beq_iff_eq, and_imp]

theorem anyJammed_iff (s : State) (z : Nat) :
    s.anyJammed z = true ↔ ∃ k, k < 3 ∧ (z = k ∨ z = k + 1) ∧ (s.shutter k).state = .jammed := by
  simp only [State.anyJammed, List.any_eq_true, mem_zoneShutters, beq_iff_eq, and_assoc]

/-- The segments of a zone (R5). -/
theorem zoneOfSegment_iff {z n : Nat} (hz : z < 4) (hn : n < 42) : zoneOfSegment n = z ↔ zoneFirst z ≤ n ∧ n ≤ zoneLast z := by
  have hall : ∀ z, z < 4 → ∀ n, n < 42 → (zoneOfSegment n = z ↔ zoneFirst z ≤ n ∧ n ≤ zoneLast z) := by decide
  exact hall z hz n hn

theorem zoneLast_lt {z : Nat} (hz : z < 4) : zoneLast z < 42 := by
  unfold zoneLast
  split <;> omega

/-! ## A zone follows a shutter (R171, R173) -/

/-- What zone `z` does when a shutter of it enters a state. -/
def State.followShutter (s : State) (x : ShutterState) (z : Nat) : State :=
  match x with
  | .closed => s.zoneOnClosed z
  | .open => s.zoneOnOpen z
  | .jammed => s.zoneOnJammed z
  | .hold => s
  | .closing => s
  | .opening => s

/-- A shutter's change of state, then the zone below it, then the zone above it (log 13). -/
theorem moveShutter_eq (s : State) (k : Nat) (x : ShutterState) (cause : ShutCause) :
    s.moveShutter k x cause = ((s.shutterTo k x cause).followShutter x k).followShutter x (k + 1) := by cases x <;> rfl

/-- Zone `z` returns to service when a shutter of it enters state `x` (R173). -/
def State.servesAgain (s : State) (x : ShutterState) (z : Nat) : Prop :=
  x = .open ∧ (s.zone z).state = .recovering ∧ ∀ k, k < 3 → (z = k ∨ z = k + 1) → (s.shutter k).state = .open

/-- Zone `z` becomes SEALED when a shutter of it enters state `x` (R171). -/
def State.sealsNow (s : State) (x : ShutterState) (z : Nat) : Prop :=
  x = .closed ∧ ((s.zone z).state = .sealing ∨ (s.zone z).state = .obstructed) ∧
    ∀ k, k < 3 → (z = k ∨ z = k + 1) → (s.shutter k).state = .closed

/-- Zone `z` becomes OBSTRUCTED when a shutter of it enters state `x` (R171). -/
def State.obstructsNow (s : State) (x : ShutterState) (z : Nat) : Prop :=
  x = .jammed ∧ ((s.zone z).state = .sealing ∨ (s.zone z).state = .sealed)

theorem followShutter_sealed {s : State} {x : ShutterState} {z : Nat} (h : s.sealsNow x z) :
    s.followShutter x z = s.zoneTo z .sealed := by
  obtain ⟨rfl, hz, hall⟩ := h
  exact if_pos ⟨hz, (allShutters_iff s z .closed).mpr hall⟩

theorem followShutter_obstructed {s : State} {x : ShutterState} {z : Nat} (h : s.obstructsNow x z) :
    s.followShutter x z = s.zoneTo z .obstructed := by
  obtain ⟨rfl, hz⟩ := h
  exact if_pos hz

theorem followShutter_serves {s : State} {x : ShutterState} {z : Nat} (h : s.servesAgain x z) :
    s.followShutter x z = s.returnToService z := by
  obtain ⟨rfl, hz, hall⟩ := h
  exact if_pos ⟨hz, (allShutters_iff s z .open).mpr hall⟩

theorem followShutter_stands {s : State} {x : ShutterState} {z : Nat} (h1 : ¬s.sealsNow x z) (h2 : ¬s.obstructsNow x z)
    (h3 : ¬s.servesAgain x z) : s.followShutter x z = s := by
  cases x with
  | closed => exact if_neg fun ⟨hz, hall⟩ => h1 ⟨rfl, hz, (allShutters_iff s z .closed).mp hall⟩
  | jammed => exact if_neg fun hz => h2 ⟨rfl, hz⟩
  | hold => rfl
  | closing => rfl
  | opening => rfl
  | _ => exact if_neg fun ⟨hz, hall⟩ => h3 ⟨rfl, hz, (allShutters_iff s z .open).mp hall⟩

theorem returnToService_eq (s : State) (z : Nat) :
    s.returnToService z =
      if (s.loop z).filtered = .openFault ∨ (s.loop z).filtered = .shortFault then
        ((s.zoneTo z .inService).unsealZone z).zoneTo z .degraded
      else (s.zoneTo z .inService).unsealZone z := by
  simp only [State.returnToService, unsealZone_loop, zoneTo_loop, isFault_iff]

/-- What following leaves: whatever neither the zones, nor the segments, nor the ports hold. -/
theorem followShutter_leaves {β : Type} {g : State → β} (hport : ∀ u p q, g (u.setPort p q) = g u)
    (hzone : ∀ u z r, g (u.setZone z r) = g u) (hseg : ∀ u n r, g (u.setSeg n r) = g u) (s : State) (x : ShutterState) (z : Nat) :
    g (s.followShutter x z) = g s := by
  have hto : ∀ (u : State) y, g (u.zoneTo z y) = g u := fun u y => zoneTo_leaves hport hzone u z y
  by_cases h1 : s.sealsNow x z
  · rw [followShutter_sealed h1, hto]
  · by_cases h2 : s.obstructsNow x z
    · rw [followShutter_obstructed h2, hto]
    · by_cases h3 : s.servesAgain x z
      · rw [followShutter_serves h3, returnToService_eq]
        split
        · rw [hto, unsealZone_leaves hseg, hto]
        · rw [unsealZone_leaves hseg, hto]
      · rw [followShutter_stands h1 h2 h3]

theorem zoneTo_receiver (s : State) (z : Nat) (x : ZoneState) (p : Port) :
    ((s.zoneTo z x).port p).receiver = (s.port p).receiver := by
  rw [State.zoneTo, raiseAll_receiver, State.setZone_port]

theorem followShutter_receiver (s : State) (x : ShutterState) (z : Nat) (p : Port) :
    ((s.followShutter x z).port p).receiver = (s.port p).receiver := by
  have hun : ∀ u : State, (u.unsealZone z).port p = u.port p := fun u => unsealZone_leaves (g := fun v => v.port p) (by simp) u z
  by_cases h1 : s.sealsNow x z
  · rw [followShutter_sealed h1, zoneTo_receiver]
  · by_cases h2 : s.obstructsNow x z
    · rw [followShutter_obstructed h2, zoneTo_receiver]
    · by_cases h3 : s.servesAgain x z
      · rw [followShutter_serves h3, returnToService_eq]
        split
        · rw [zoneTo_receiver, hun, zoneTo_receiver]
        · rw [hun, zoneTo_receiver]
      · rw [followShutter_stands h1 h2 h3]

@[simp] theorem followShutter_shutter (s : State) (x : ShutterState) (z k : Nat) : (s.followShutter x z).shutter k = s.shutter k :=
  followShutter_leaves (g := fun u => u.shutter k) (by simp) (by simp) (by simp) s x z

@[simp] theorem followShutter_loop (s : State) (x : ShutterState) (z k : Nat) : (s.followShutter x z).loop k = s.loop k :=
  followShutter_leaves (g := fun u => u.loop k) (by simp) (by simp) (by simp) s x z

theorem followShutter_zone_ne (s : State) (x : ShutterState) {z y : Nat} (h : y ≠ z) : (s.followShutter x z).zone y = s.zone y := by
  by_cases h1 : s.sealsNow x z
  · rw [followShutter_sealed h1, zoneTo_zone_ne _ _ h]
  · by_cases h2 : s.obstructsNow x z
    · rw [followShutter_obstructed h2, zoneTo_zone_ne _ _ h]
    · by_cases h3 : s.servesAgain x z
      · rw [followShutter_serves h3, returnToService_eq]
        split
        · rw [zoneTo_zone_ne _ _ h, unsealZone_zone, zoneTo_zone_ne _ _ h]
        · rw [unsealZone_zone, zoneTo_zone_ne _ _ h]
      · rw [followShutter_stands h1 h2 h3]

theorem returnToService_zone (s : State) (z : Nat) :
    (s.returnToService z).zone z =
      { s.zone z with
        state := if (s.loop z).filtered = .openFault ∨ (s.loop z).filtered = .shortFault then .degraded else .inService } := by
  rw [returnToService_eq]
  split
  · rw [zoneTo_zone, if_pos rfl, unsealZone_zone, zoneTo_zone, if_pos rfl]
  · rw [unsealZone_zone, zoneTo_zone, if_pos rfl]

/-- The segments of a zone that returns to service are opened, and no other (R125). -/
theorem returnToService_seg (s : State) (z n : Nat) :
    (s.returnToService z).seg n = if zoneFirst z ≤ n ∧ n ≤ zoneLast z then openedSeg (s.seg n) else s.seg n := by
  rw [returnToService_eq]
  split
  · rw [zoneTo_seg, unsealZone_seg, zoneTo_seg]
  · rw [unsealZone_seg, zoneTo_seg]

theorem followShutter_seg_opened {s : State} {x : ShutterState} {z n : Nat} (h : s.servesAgain x z)
    (hn : zoneFirst z ≤ n ∧ n ≤ zoneLast z) : (s.followShutter x z).seg n = openedSeg (s.seg n) := by
  rw [followShutter_serves h, returnToService_seg, if_pos hn]

theorem followShutter_seg_kept {s : State} {x : ShutterState} {z n : Nat}
    (h : s.servesAgain x z → ¬(zoneFirst z ≤ n ∧ n ≤ zoneLast z)) : (s.followShutter x z).seg n = s.seg n := by
  by_cases h1 : s.sealsNow x z
  · rw [followShutter_sealed h1, zoneTo_seg]
  · by_cases h2 : s.obstructsNow x z
    · rw [followShutter_obstructed h2, zoneTo_seg]
    · by_cases h3 : s.servesAgain x z
      · rw [followShutter_serves h3, returnToService_seg, if_neg (h h3)]
      · rw [followShutter_stands h1 h2 h3]

/-! ## The change of a shutter's state (R174, R180) -/

theorem travelTimer_eq (s : State) (x : ShutterState) :
    s.travelTimer x = if x = .closing ∨ x = .opening then some (s.settings.travel * 1000) else none := by cases x <;> rfl

theorem shutterTo_leaves {β : Type} {g : State → β} (hport : ∀ u p q, g (u.setPort p q) = g u)
    (hshutter : ∀ u k r, g (u.setShutter k r) = g u) (s : State) (k : Nat) (x : ShutterState) (cause : ShutCause) :
    g (s.shutterTo k x cause) = g s := (raiseAll_leaves hport _ _ _).trans (hshutter ..)

@[simp] theorem shutterTo_zone (s : State) (k : Nat) (x : ShutterState) (cause : ShutCause) (z : Nat) :
    (s.shutterTo k x cause).zone z = s.zone z := shutterTo_leaves (g := fun u => u.zone z) (by simp) (by simp) s k x cause

@[simp] theorem shutterTo_loop (s : State) (k : Nat) (x : ShutterState) (cause : ShutCause) (z : Nat) :
    (s.shutterTo k x cause).loop z = s.loop z := shutterTo_leaves (g := fun u => u.loop z) (by simp) (by simp) s k x cause

@[simp] theorem shutterTo_seg (s : State) (k : Nat) (x : ShutterState) (cause : ShutCause) (n : Nat) :
    (s.shutterTo k x cause).seg n = s.seg n := shutterTo_leaves (g := fun u => u.seg n) (by simp) (by simp) s k x cause

theorem shutterTo_shutter (s : State) (k : Nat) (x : ShutterState) (cause : ShutCause) (j : Nat) :
    (s.shutterTo k x cause).shutter j = (s.setShutter k { s.shutter k with state := x, timer := s.travelTimer x }).shutter j :=
  raiseAll_leaves (g := fun u => u.shutter j) (by simp) _ _ _

theorem moveShutter_shutter (s : State) (k : Nat) (x : ShutterState) (cause : ShutCause) (j : Nat) :
    (s.moveShutter k x cause).shutter j =
      if j = k then { s.shutter k with state := x, timer := s.travelTimer x } else s.shutter j := by
  rw [moveShutter_eq, followShutter_shutter, followShutter_shutter, shutterTo_shutter, State.setShutter_shutter]

theorem moveShutter_leaves {β : Type} {g : State → β} (hport : ∀ u p q, g (u.setPort p q) = g u)
    (hzone : ∀ u z r, g (u.setZone z r) = g u) (hseg : ∀ u n r, g (u.setSeg n r) = g u)
    (hshutter : ∀ u k r, g (u.setShutter k r) = g u) (s : State) (k : Nat) (x : ShutterState) (cause : ShutCause) :
    g (s.moveShutter k x cause) = g s := by
  rw [moveShutter_eq, followShutter_leaves hport hzone hseg, followShutter_leaves hport hzone hseg,
    shutterTo_leaves hport hshutter]

/-- The zone a shutter's change reaches, before and after the zone on its other side has followed. -/
theorem follow_congr {s t : State} {z : Nat} (hz : t.zone z = s.zone z) (hsh : ∀ k, t.shutter k = s.shutter k) (x : ShutterState) :
    (t.sealsNow x z ↔ s.sealsNow x z) ∧ (t.obstructsNow x z ↔ s.obstructsNow x z) ∧ (t.servesAgain x z ↔ s.servesAgain x z) := by
  simp only [State.sealsNow, State.obstructsNow, State.servesAgain, hz, hsh, and_self]

/-- The record of zone `z` after a shutter of it has moved is as its own following leaves it. -/
theorem moveShutter_zone_own {s : State} {k z : Nat} (h : z = k ∨ z = k + 1) (x : ShutterState) (cause : ShutCause) :
    ∃ v : State, v.zone z = s.zone z ∧ (∀ j, v.shutter j = (s.shutterTo k x cause).shutter j) ∧ v.loop z = s.loop z ∧
      (s.moveShutter k x cause).zone z = (v.followShutter x z).zone z := by
  rw [moveShutter_eq]
  rcases h with rfl | rfl
  · exact ⟨s.shutterTo z x cause, by simp, fun j => rfl, by simp, followShutter_zone_ne _ _ (by omega)⟩
  · exact ⟨(s.shutterTo k x cause).followShutter x k, by rw [followShutter_zone_ne _ _ (by omega), shutterTo_zone], by simp, by simp, rfl⟩

theorem moveShutter_zone_other {s : State} {k z : Nat} (h : ¬(z = k ∨ z = k + 1)) (x : ShutterState) (cause : ShutCause) :
    (s.moveShutter k x cause).zone z = s.zone z := by
  rw [not_or] at h
  rw [moveShutter_eq, followShutter_zone_ne _ _ h.2, followShutter_zone_ne _ _ h.1, shutterTo_zone]

theorem openedSeg_openedSeg (r : Segment) : openedSeg (openedSeg r) = openedSeg r := by simp [openedSeg]

/-- The second zone follows from the records the first one found. -/
theorem servesAgain_second (s : State) (x : ShutterState) (k : Nat) :
    (s.followShutter x k).servesAgain x (k + 1) ↔ s.servesAgain x (k + 1) :=
  (follow_congr (followShutter_zone_ne s x (by omega)) (fun j => followShutter_shutter s x k j) x).2.2

/-- A segment of a zone that the shutter lets return to service is opened. -/
theorem moveShutter_seg_opened {s : State} {k z : Nat} {x : ShutterState} {cause : ShutCause} {n : Nat} (hz : z = k ∨ z = k + 1)
    (h : (s.shutterTo k x cause).servesAgain x z) (hn : zoneFirst z ≤ n ∧ n ≤ zoneLast z) :
    (s.moveShutter k x cause).seg n = openedSeg (s.seg n) := by
  rw [moveShutter_eq]
  have hsecond := servesAgain_second (s.shutterTo k x cause) x k
  rcases hz with rfl | rfl
  · have hfirst := followShutter_seg_opened h hn
    by_cases hv : (s.shutterTo z x cause).servesAgain x (z + 1) ∧ zoneFirst (z + 1) ≤ n ∧ n ≤ zoneLast (z + 1)
    · rw [followShutter_seg_opened (hsecond.mpr hv.1) hv.2, hfirst, openedSeg_openedSeg, shutterTo_seg]
    · rw [followShutter_seg_kept fun hs hr => hv ⟨hsecond.mp hs, hr⟩, hfirst, shutterTo_seg]
  · rw [followShutter_seg_opened (hsecond.mpr h) hn]
    by_cases hv : (s.shutterTo k x cause).servesAgain x k ∧ zoneFirst k ≤ n ∧ n ≤ zoneLast k
    · rw [followShutter_seg_opened hv.1 hv.2, openedSeg_openedSeg, shutterTo_seg]
    · rw [followShutter_seg_kept fun hs hr => hv ⟨hs, hr⟩, shutterTo_seg]

/-- Every other segment stands. -/
theorem moveShutter_seg_kept {s : State} {k : Nat} {x : ShutterState} {cause : ShutCause} {n : Nat}
    (h : ∀ z, (z = k ∨ z = k + 1) → (s.shutterTo k x cause).servesAgain x z → ¬(zoneFirst z ≤ n ∧ n ≤ zoneLast z)) :
    (s.moveShutter k x cause).seg n = s.seg n := by
  rw [moveShutter_eq,
    followShutter_seg_kept fun hs => h (k + 1) (.inr rfl) ((servesAgain_second (s.shutterTo k x cause) x k).mp hs),
    followShutter_seg_kept (h k (.inl rfl)), shutterTo_seg]

/-! ## The frame -/

/-- The state with the zones and segments of another, all else kept. -/
def State.withZonesOf (s u : State) : State := { s with zones := u.zones, segs := u.segs }

/-- Following changes the zones and the segments alone. -/
theorem followShutter_still (s w : State) (x : ShutterState) (z : Nat) :
    ((s.followShutter x z).withZonesOf w).still = (s.withZonesOf w).still :=
  followShutter_leaves (g := fun u => (u.withZonesOf w).still)
    (fun u p q => by cases p <;> rfl) (fun u z r => rfl) (fun u n r => rfl) s x z

theorem moveShutter_still (s : State) (k : Nat) (x : ShutterState) (cause : ShutCause) :
    (s.moveShutter k x cause).still =
      ((s.setShutter k { s.shutter k with state := x, timer := s.travelTimer x }).withZonesOf (s.moveShutter k x cause)).still := by
  have hmove : ∀ w, ((s.moveShutter k x cause).withZonesOf w).still = ((s.shutterTo k x cause).withZonesOf w).still := fun w => by
    rw [moveShutter_eq, followShutter_still, followShutter_still]
  exact (hmove _).trans
    (raiseAll_leaves (g := fun u => (u.withZonesOf (s.moveShutter k x cause)).still) (fun u p q => by cases p <;> rfl) _ _ _)

theorem moveShutter_receiver (s : State) (k : Nat) (x : ShutterState) (cause : ShutCause) (p : Port) :
    ((s.moveShutter k x cause).port p).receiver = (s.port p).receiver := by
  rw [moveShutter_eq, followShutter_receiver, followShutter_receiver, State.shutterTo, raiseAll_receiver, State.setShutter_port]

/-! ## Entering CLOSING and OPENING (R175) -/

theorem enterClosing_eq (s : State) (k : Nat) (cause : ShutCause) :
    s.enterClosing k cause =
      if (s.shutter k).closedLimit = true then (s.moveShutter k .closing cause).moveShutter k .closed .limit
      else s.moveShutter k .closing cause := by
  simp only [State.enterClosing, moveShutter_shutter, if_true]

theorem enterOpening_eq (s : State) (k : Nat) (cause : ShutCause) :
    s.enterOpening k cause =
      if (s.shutter k).openLimit = true then (s.moveShutter k .opening cause).moveShutter k .open .limit
      else s.moveShutter k .opening cause := by
  simp only [State.enterOpening, moveShutter_shutter, if_true]

theorem unsealZone_frame (s : State) (z : Nat) : s.unsealZone z = { s with segs := (s.unsealZone z).segs } := by
  obtain ⟨w, hw⟩ : ∃ w, s.unsealZone z = { s with segs := w } := by
    refine foldl_keeps (P := fun u => ∃ w, u = { s with segs := w }) ?_ _ ⟨s.segs, rfl⟩
    rintro u n ⟨w, rfl⟩
    exact ⟨_, rfl⟩
  rw [hw]

/-- What a zone that returns to service does, in its steps (R173). -/
theorem returnToService_steps (s : State) {z : Nat} (hz : z < 4) :
    ∃ v w : State, v = s.zoneTo z .inService ∧ w = { v with segs := w.segs } ∧
      (∀ n, w.seg n =
        if n < 42 ∧ zoneOfSegment n = z then ⟨if (s.seg n).sealState = .sealed then none else (s.seg n).holder, .open⟩
        else s.seg n) ∧
      s.returnToService z =
        if (s.loop z).filtered = .openFault ∨ (s.loop z).filtered = .shortFault then w.zoneTo z .degraded else w := by
  refine ⟨_, (s.zoneTo z .inService).unsealZone z, rfl, ?_, fun n => ?_, returnToService_eq s z⟩
  · exact unsealZone_frame _ z
  · rw [unsealZone_seg, zoneTo_seg]
    by_cases h : zoneFirst z ≤ n ∧ n ≤ zoneLast z
    · have hn := h.2.trans_lt (zoneLast_lt hz)
      rw [if_pos h, if_pos ⟨hn, (zoneOfSegment_iff hz hn).mpr h⟩]
      rfl
    · rw [if_neg h, if_neg fun hc => h ((zoneOfSegment_iff hz hc.1).mp hc.2)]

/-- Settles O50: the zones below and above the shutter follow, each from what its own records then are. -/
theorem zonesFollowTheirShutters : Obligations.ZonesFollowTheirShutters := by
  refine ⟨?_, ?_, fun s z hz => returnToService_steps s hz, fun s k cause => ⟨enterClosing_eq s k cause, enterOpening_eq s k cause⟩⟩
  · rintro s k x cause t u hk ht rfl all rfl returns hret
    have hshut : ∀ j, (s.shutterTo k x cause).shutter j = t.shutter j := fun j => by
      rw [shutterTo_shutter, travelTimer_eq, ht]
    have hserves : ∀ z, returns z ↔ (z = k ∨ z = k + 1) ∧ (s.shutterTo k x cause).servesAgain x z := fun z => by
      simp only [hret, State.servesAgain, shutterTo_zone, hshut]
      tauto
    refine ⟨fun z => ⟨fun hz hx hs ha => ?_, fun hz hx hs => ?_, fun hr => ?_, fun hr hn => ?_⟩, fun n hn hr => ?_, fun n hn => ?_, ?_,
      moveShutter_receiver s k x cause⟩
    · obtain ⟨v, h1, h2, -, h4⟩ := moveShutter_zone_own hz x cause
      rw [h4, followShutter_sealed ⟨hx, by rwa [h1], by simpa only [h2, hshut] using ha⟩, zoneTo_zone, if_pos rfl, h1]
    · obtain ⟨v, h1, h2, -, h4⟩ := moveShutter_zone_own hz x cause
      rw [h4, followShutter_obstructed ⟨hx, by rwa [h1]⟩, zoneTo_zone, if_pos rfl, h1]
    · obtain ⟨hz, hs⟩ := (hserves z).mp hr
      obtain ⟨v, h1, h2, h3, h4⟩ := moveShutter_zone_own hz x cause
      have hv := (follow_congr (h1.trans (shutterTo_zone s k x cause z).symm) h2 x).2.2.mpr hs
      rw [h4, followShutter_serves hv, returnToService_zone, h1, h3]
    · by_cases hz : z = k ∨ z = k + 1
      · obtain ⟨v, h1, h2, -, h4⟩ := moveShutter_zone_own hz x cause
        have hv := follow_congr (h1.trans (shutterTo_zone s k x cause z).symm) h2 x
        have hseal : ¬v.sealsNow x z := fun h => by
          obtain ⟨hx, hs, ha⟩ := hv.1.mp h
          rw [shutterTo_zone] at hs
          simp only [hshut] at ha
          exact hn ⟨hz, .inl ⟨hx, hs, ha⟩⟩
        have hjam : ¬v.obstructsNow x z := fun h => by
          obtain ⟨hx, hs⟩ := hv.2.1.mp h
          rw [shutterTo_zone] at hs
          exact hn ⟨hz, .inr ⟨hx, hs⟩⟩
        rw [h4, followShutter_stands hseal hjam fun h => hr ((hserves z).mpr ⟨hz, hv.2.2.mp h⟩), h1]
      · exact moveShutter_zone_other hz x cause
    · obtain ⟨hz, hs⟩ := (hserves _).mp hr
      exact moveShutter_seg_opened hz hs ((zoneOfSegment_iff (by omega) hn).mp rfl)
    · refine moveShutter_seg_kept fun z hz hs hr => ?_
      have hz4 : z < 4 := by omega
      have hlt := hr.2.trans_lt (zoneLast_lt hz4)
      rcases hn with hn | hn
      · omega
      · rw [(zoneOfSegment_iff hz4 hlt).mpr hr] at hn
        exact hn ((hserves z).mpr ⟨hz, hs⟩)
    · rw [SameBlocks, moveShutter_still, travelTimer_eq, ht]
      rfl
  · intro s k x cause follow hk hdef
    have hfollow : ∀ (v : State) z, follow v z = v.followShutter x z := fun v z => by
      rw [hdef]
      dsimp only
      split
      · next h => exact (followShutter_sealed h).symm
      · next h1 =>
        split
        · next h => exact (followShutter_obstructed h).symm
        · next h2 =>
          split
          · next h => exact (followShutter_serves h).symm
          · next h3 => exact (followShutter_stands h1 h2 h3).symm
    rw [hfollow, hfollow, moveShutter_eq, State.shutterTo, travelTimer_eq]
    rfl

end Sys2Proof.Machine

end

/-! # Loops, alarms, the clearance expiry, limits and fire resets (O47, O48, O49, O51, O52) -/

section

namespace Sys2Proof.Machine

/-! ## Loops (R164, R165, R167, R169) -/

theorem rawClass_eq (s : State) (v : Nat) (m : Bool) :
    s.rawClass v m =
      if m = true then .alarm else if v ≤ s.settings.shortTh then .shortFault
      else if s.settings.openTh ≤ v then .openFault else if s.settings.alarmTh ≤ v then .alarm else .normal := rfl

theorem debounce_settled {l : Loop} {raw : LoopClass} (need : Nat) (h : raw = l.filtered) :
    l.debounce raw need = { l with candidate := none, count := 0 } := if_pos h

theorem debounce_candidate {l : Loop} {raw : LoopClass} (need : Nat) (h : raw ≠ l.filtered) (hc : l.candidate ≠ some raw) :
    l.debounce raw need = { l with candidate := some raw, count := 1 } := by
  rw [Loop.debounce, if_neg h, if_neg hc]

theorem debounce_counted {l : Loop} {raw : LoopClass} {need : Nat} (h : raw ≠ l.filtered) (hc : l.candidate = some raw)
    (hn : l.count + 1 < need) : l.debounce raw need = { l with count := l.count + 1 } := by
  rw [Loop.debounce, if_neg h, if_pos hc, if_neg (by omega)]

theorem debounce_taken {l : Loop} {raw : LoopClass} {need : Nat} (h : raw ≠ l.filtered) (hc : l.candidate = some raw)
    (hn : need ≤ l.count + 1) : l.debounce raw need = { l with filtered := raw, candidate := none, count := 0 } := by
  rw [Loop.debounce, if_neg h, if_pos hc, if_pos hn]

theorem takeClass_alarm {s : State} {z : Nat}
    (h : (s.zone z).state = .inService ∨ (s.zone z).state = .degraded ∨ (s.zone z).state = .recovering) :
    s.takeClass z .alarm = s.alarm z := by
  rcases h with h | h | h <;> simp [State.takeClass, h]

theorem takeClass_alarmed {s : State} {z : Nat} (h1 : (s.zone z).state ≠ .inService) (h2 : (s.zone z).state ≠ .degraded)
    (h3 : (s.zone z).state ≠ .recovering) : s.takeClass z .alarm = s := by
  unfold State.takeClass
  cases h : (s.zone z).state with
  | inService => exact absurd h h1
  | degraded => exact absurd h h2
  | recovering => exact absurd h h3
  | clearing => rfl
  | sealing => rfl
  | sealed => rfl
  | obstructed => rfl

theorem takeClass_fault {s : State} {z : Nat} {x : LoopClass} (h : x = .openFault ∨ x = .shortFault) :
    s.takeClass z x = if (s.zone z).state = .inService then s.zoneTo z .degraded else s := by
  unfold State.takeClass
  rcases h with rfl | rfl <;> cases (s.zone z).state <;> rfl

theorem takeClass_normal (s : State) (z : Nat) :
    s.takeClass z .normal = if (s.zone z).state = .degraded then s.zoneTo z .inService else s := by
  unfold State.takeClass
  cases (s.zone z).state <;> rfl

/-- Settles O47: the debounce by what the sample meets; the zone by its state and the class. -/
theorem loopSamplesAreDebounced : Obligations.LoopSamplesAreDebounced := by
  refine ⟨?_, ?_⟩
  · rintro s z v m raw l hs rfl rfl
    let n : Loop := { (s.loop z).debounce (s.rawClass v m) s.settings.debounce with
      lastValue := some v, lastRaw := some (s.rawClass v m) }
    refine ⟨n, (s.setManual m).setLoop z n, rfl, rfl, rfl, whenRunning_run hs, fun h => ?_, fun h hc => ?_, fun h hc hn => ?_,
      fun h hc hn => ?_⟩ <;>
      simp only [n, rawClass_eq]
    · simp [debounce_settled s.settings.debounce h]
    · simp [debounce_candidate s.settings.debounce h hc]
    · simp [debounce_counted h hc hn, hc]
    · simp [debounce_taken h hc hn]
  · rintro s z x st rfl
    refine ⟨?_, ?_, takeClass_fault, ?_, fun y => rfl⟩
    · rintro rfl h
      exact takeClass_alarm h
    · rintro rfl h1 h2 h3
      exact takeClass_alarmed h1 h2 h3
    · rintro rfl
      exact takeClass_normal s z

/-! ## Alarms (R167, R168, R181, R182) -/

theorem sealZone_frame (s : State) (z : Nat) : s.sealZone z = { s with segs := (s.sealZone z).segs } := by
  obtain ⟨w, hw⟩ : ∃ w, s.sealZone z = { s with segs := w } := by
    refine foldl_keeps (P := fun u => ∃ w, u = { s with segs := w }) ?_ _ ⟨s.segs, rfl⟩
    rintro u n ⟨w, rfl⟩
    exact ⟨_, rfl⟩
  rw [hw]

theorem takeDemand_hold {s : State} {k : Nat} (h : (s.shutter k).state = .open ∨ (s.shutter k).state = .opening) :
    s.takeDemand k = s.moveShutter k .hold .demand := by
  rcases h with h | h <;> simp [State.takeDemand, h]

theorem takeDemand_stands {s : State} {k : Nat} (h1 : (s.shutter k).state ≠ .open) (h2 : (s.shutter k).state ≠ .opening) :
    s.takeDemand k = s := by
  unfold State.takeDemand
  cases h : (s.shutter k).state with
  | opening => exact absurd h h2
  | hold => rfl
  | closing => rfl
  | closed => rfl
  | jammed => rfl
  | _ => exact absurd h h1

theorem takeDemand_leaves {β : Type} {g : State → β} (hport : ∀ u p q, g (u.setPort p q) = g u)
    (hzone : ∀ u z r, g (u.setZone z r) = g u) (hseg : ∀ u n r, g (u.setSeg n r) = g u)
    (hshutter : ∀ u k r, g (u.setShutter k r) = g u) (s : State) (k : Nat) : g (s.takeDemand k) = g s := by
  by_cases h : (s.shutter k).state = .open ∨ (s.shutter k).state = .opening
  · rw [takeDemand_hold h, moveShutter_leaves hport hzone hseg hshutter]
  · rw [not_or] at h
    rw [takeDemand_stands h.1 h.2]

theorem raiseEvac_eq (s : State) {z : Nat} (hz : z < 4) (c : Crane) :
    ((∃ n, n < 42 ∧ zoneOfSegment n = z ∧ (s.seg n).holder = some c) →
        s.raiseEvac z c = s.raise (portOf c) (.evac z (evacSegment z c))) ∧
      ((∀ n, n < 42 → zoneOfSegment n = z → (s.seg n).holder ≠ some c) → s.raiseEvac z c = s) := by
  have hany : (zoneSegments z).any (s.holds c) = true ↔ ∃ n, n < 42 ∧ zoneOfSegment n = z ∧ (s.seg n).holder = some c := by
    simp only [List.any_eq_true, zoneSegments, mem_upTo, State.holds, beq_iff_eq]
    refine exists_congr fun n => ⟨fun ⟨hn, h⟩ => ?_, fun ⟨hn, hzn, h⟩ => ⟨(zoneOfSegment_iff hz hn).mp hzn, h⟩⟩
    have hlt := hn.2.trans_lt (zoneLast_lt hz)
    exact ⟨hlt, (zoneOfSegment_iff hz hlt).mpr hn, h⟩
  refine ⟨fun h => if_pos (hany.mpr h), fun h => if_neg fun ha => ?_⟩
  obtain ⟨n, hn, hzn, hh⟩ := hany.mp ha
  exact h n hn hzn hh

theorem evacSegment_eq {z : Nat} (hz : z < 4) (c : Crane) :
    evacSegment z c =
      match c with
      | .A => if z = 0 then none else some (10 * z)
      | .B => if z = 3 then none else some (10 * z + 11) := by
  interval_cases z <;> cases c <;> rfl

theorem cellsInZone_iff (o : Order) (z : Nat) :
    o.cells.any (inZone z) = true ↔ ∃ n, n ∈ o.cells ∧ zoneOfCell n = z := by
  simp [inZone]

/-- The fate of a QUEUED or other FETCH (R181). -/
theorem fateOne_fetch {s : State} {z i g n : Nat} {o : Order} {st : Station} (h : s.slot i = ⟨g, some o⟩) (hk : o.kind = .fetch)
    (hsrc : o.source = .cell n) (hd : o.dest = some (.station st)) :
    s.fateOne z i =
      if o.state = .queued ∧ (zoneOfCell n = z ∨ zoneOfStation st = z) then s.endOrder i .cancelled (some .cancelledFire) else s := by
  have hcells : o.cells = [n] := by simp [Order.cells, hk, hsrc, Place.cellOf]
  have hst : o.station = some st := by simp [Order.station, hk, hd]
  unfold State.fateOne
  cases hs : o.state <;> simp [h, hk, hs, hcells, hst, inZone]

theorem fateOne_verify {s : State} {z i g n : Nat} {o : Order} (h : s.slot i = ⟨g, some o⟩) (hk : o.kind = .verify)
    (hsrc : o.source = .cell n) :
    s.fateOne z i = if o.state = .queued ∧ zoneOfCell n = z then s.endOrder i .cancelled none else s := by
  have hcells : o.cells = [n] := by simp [Order.cells, hk, hsrc, Place.cellOf]
  unfold State.fateOne
  cases hs : o.state <;> simp [h, hk, hs, hcells, inZone]

/-- The fate of a STOW or MOVE: re-destined where its destination cell lies in the zone and it is not DISPATCHED (R181). -/
theorem fateOne_stows {s : State} {z i g : Nat} {o : Order} (h : s.slot i = ⟨g, some o⟩) (hk : o.kind = .stow ∨ o.kind = .move) :
    s.fateOne z i = if o.state ≠ .dispatched ∧ o.destCell.any (inZone z) = true then s.redestine i else s := by
  unfold State.fateOne
  rcases hk with hk | hk <;> cases hs : o.state <;> simp [h, hk, hs]

theorem fateOne_dispatched {s : State} {z i g : Nat} {o : Order} (h : s.slot i = ⟨g, some o⟩) (hd : o.state = .dispatched) :
    s.fateOne z i = s := by
  unfold State.fateOne
  cases hk : o.kind <;> simp [h, hd, hk]

/-- Settles O48: the alarm's steps in their order; the evacuation by the segments held; the fate by the order's kind. -/
theorem anAlarmClosesTheZone : Obligations.AnAlarmClosesTheZone := by
  refine ⟨⟨fun s z hz => ?_, ?_, fun s z c hz => ?_⟩, fun s z i g o h => ⟨fun n st hk hsrc hd => fateOne_fetch h hk hsrc hd,
    fun n hk hsrc => fateOne_verify h hk hsrc, fun hk => ⟨fun n hd => ?_, fun hd => ?_⟩, fun hd => fateOne_dispatched h hd⟩⟩
  · let s0 := s.setZone z { s.zone z with state := .clearing, latch := true }
    have hframe := sealZone_frame s0 z
    have hseg : ∀ n, (s0.sealZone z).seg n = if zoneFirst z ≤ n ∧ n ≤ zoneLast z then closedSeg (s.seg n) else s.seg n := fun n => by
      rw [sealZone_seg, State.setZone_seg]
    refine ⟨s0.sealZone z, (zoneShutters z).foldl (fun t k => t.takeDemand k) (s0.sealZone z), _, ?_, fun y => ?_, fun n hn => ?_,
      fun n hn => ?_, ?_, rfl, ?_⟩
    · rw [hframe]
      rfl
    · have hzone : (s0.sealZone z).zone y = s0.zone y := by rw [hframe]; rfl
      rw [hzone, State.setZone_zone]
    · rw [hseg]
      exact if_congr (zoneOfSegment_iff hz hn).symm rfl rfl
    · rw [hseg, if_neg]
      have := zoneLast_lt hz
      omega
    · interval_cases z <;> rfl
    · have hset : ((zoneShutters z).foldl (fun t k => t.takeDemand k) (s0.sealZone z)).settings = s.settings := by
        rw [foldl_leaves (fun u : State => u.settings) (fun u k => takeDemand_leaves (g := fun v => v.settings) (by simp) (by simp)
          (by simp) (by simp) u k), hframe]
        rfl
      rw [← hset]
      rfl
  · rintro s k x rfl
    exact ⟨takeDemand_hold, takeDemand_stands⟩
  · obtain ⟨hheld, hfree⟩ := raiseEvac_eq s hz c
    exact ⟨fun h => (hheld h).trans (congrArg (fun x => s.raise (portOf c) (.evac z x)) (evacSegment_eq hz c)), hfree⟩
  · rw [fateOne_stows h hk]
    simp [Order.destCell, hd, Place.cellOf, inZone]
  · rw [fateOne_stows h hk]
    simp [Order.destCell, hd]

/-! ## The clearance expiry (R170) -/

/-- A trip of one crane leaves what neither the cranes nor the ports hold. -/
theorem latchTrip_leaves {β : Type} {g : State → β} (hport : ∀ u p q, g (u.setPort p q) = g u)
    (hcrane : ∀ u c r, g (u.setCrane c r) = g u) (s : State) (c : Crane) (x : TripCause) : g (s.latchTrip c x) = g s := by
  cases h : (s.crane c).hasTrip x with
  | true => rw [latchTrip_same h]
  | false => rw [latchTrip_new h, State.raise, hport, State.raise, hport, hcrane]

theorem latchTrip_crane_ne (s : State) {c y : Crane} (x : TripCause) (h : y ≠ c) : (s.latchTrip c x).crane y = s.crane y := by
  cases ht : (s.crane c).hasTrip x with
  | true => rw [latchTrip_same ht]
  | false => rw [latchTrip_new ht, raise_crane, raise_crane, State.setCrane_crane_ne _ _ _ _ h]

theorem cutCrane_eq (s : State) (z : Nat) (c : Crane) :
    ((∃ n, (s.crane c).touchFirst ≤ n ∧ n ≤ (s.crane c).touchLast ∧ zoneOfSegment n = z) →
        s.cutCrane z c = s.latchTrip c .fire) ∧
      ((∀ n, (s.crane c).touchFirst ≤ n → n ≤ (s.crane c).touchLast → zoneOfSegment n ≠ z) → s.cutCrane z c = s) := by
  have hany : ((s.touched c).any fun n => zoneOfSegment n == z) = true ↔
      ∃ n, (s.crane c).touchFirst ≤ n ∧ n ≤ (s.crane c).touchLast ∧ zoneOfSegment n = z := by
    simp [State.touched, mem_upTo, and_assoc]
  refine ⟨fun h => if_pos (hany.mpr h), fun h => if_neg fun ha => ?_⟩
  obtain ⟨n, h1, h2, h3⟩ := hany.mp ha
  exact h n h1 h2 h3

theorem cutCrane_leaves {β : Type} {g : State → β} (hport : ∀ u p q, g (u.setPort p q) = g u)
    (hcrane : ∀ u c r, g (u.setCrane c r) = g u) (s : State) (z : Nat) (c : Crane) : g (s.cutCrane z c) = g s := by
  unfold State.cutCrane
  split
  · exact latchTrip_leaves hport hcrane s c .fire
  · rfl

theorem cutCrane_crane_ne (s : State) (z : Nat) {c y : Crane} (h : y ≠ c) : (s.cutCrane z c).crane y = s.crane y := by
  unfold State.cutCrane
  split
  · exact latchTrip_crane_ne s .fire h
  · rfl

/-- A crane is cut or not by its touched segments in any state that has its record. -/
theorem eq_cutCrane {s v w : State} {z : Nat} {c : Crane} (hc : v.crane c = s.crane c)
    (h : ((∃ n, (s.crane c).touchFirst ≤ n ∧ n ≤ (s.crane c).touchLast ∧ zoneOfSegment n = z) → w = v.latchTrip c .fire) ∧
      ((∀ n, (s.crane c).touchFirst ≤ n → n ≤ (s.crane c).touchLast → zoneOfSegment n ≠ z) → w = v)) : w = v.cutCrane z c := by
  obtain ⟨h1, h2⟩ := cutCrane_eq v z c
  rw [hc] at h1 h2
  by_cases ht : ∃ n, (s.crane c).touchFirst ≤ n ∧ n ≤ (s.crane c).touchLast ∧ zoneOfSegment n = z
  · rw [h.1 ht, h1 ht]
  · have hno : ∀ n, (s.crane c).touchFirst ≤ n → n ≤ (s.crane c).touchLast → zoneOfSegment n ≠ z :=
      fun n ha hb hz => ht ⟨n, ha, hb, hz⟩
    rw [h.2 hno, h2 hno]

/-- Settles O49: each crane is cut by its own touched segments; the zone then follows its shutters. -/
theorem theClearanceExpiryCuts : Obligations.TheClearanceExpiryCuts := by
  intro s z hs
  refine ⟨fun h => (whenRunning_run hs).trans ?_, ?_⟩
  · rw [if_neg]
    rintro ⟨h1, h2⟩
    rcases h with h | h
    · exact h h1
    · simp [h] at h2
  · rintro hst htimer a b t u hcut rfl hu
    have ha := eq_cutCrane rfl (hcut .A s a (.inl ⟨rfl, rfl, rfl⟩))
    subst ha
    have hb := eq_cutCrane (cutCrane_crane_ne s z (by decide)) (hcut .B _ b (.inr ⟨rfl, rfl, rfl⟩))
    subst hb
    have hzone : ((s.cutCrane z .A).cutCrane z .B).zone z = s.zone z := by
      rw [cutCrane_leaves (g := fun v => v.zone z) (by simp) (by simp), cutCrane_leaves (g := fun v => v.zone z) (by simp) (by simp)]
    have hshut : ∀ k, ((s.cutCrane z .A).cutCrane z .B).shutter k = s.shutter k := fun k => by
      rw [cutCrane_leaves (g := fun v => v.shutter k) (by simp) (by simp), cutCrane_leaves (g := fun v => v.shutter k) (by simp) (by simp)]
    have hend : u = ((s.cutCrane z .A).cutCrane z .B).endClearance z := by
      obtain ⟨h1, h2, h3⟩ := hu _ _ Iff.rfl Iff.rfl
      simp only [State.endClearance, hzone, allShutters_iff, anyJammed_iff, zoneTo_shutter, State.setZone_shutter, hshut]
      split
      · next hc => exact h1 hc
      · next hc =>
        split
        · next hj => exact h2 hc hj
        · next hj => exact h3 hc hj
    refine (whenRunning_run hs).trans ?_
    rw [if_pos ⟨hst, Option.isSome_iff_ne_none.mpr htimer⟩, hend]

/-! ## Travel, limits and SOPEN (R177 to R179) -/

theorem demands_iff (x : ZoneState) :
    x.demands = true ↔ x = .clearing ∨ x = .sealing ∨ x = .sealed ∨ x = .obstructed := by cases x <;> decide

theorem demanded_iff (s : State) (k : Nat) :
    s.demanded k = true ↔ ∃ z, (z = k ∨ z = k + 1) ∧
      ((s.zone z).state = .clearing ∨ (s.zone z).state = .sealing ∨ (s.zone z).state = .sealed ∨ (s.zone z).state = .obstructed) := by
  simp only [State.demanded, Bool.or_eq_true, demands_iff, or_and_right, exists_or, exists_eq_left]

/-- The limit input's level last seen, and the shutter with a level seen, by the input (R174). -/
theorem limit_eq {s t : State} {k : Nat} {i : LimitSwitch} {level seen : Bool}
    (h : i = .closedLimit ∧ seen = (s.shutter k).closedLimit ∧ t = s.setShutter k { s.shutter k with closedLimit := level } ∨
      i = .openLimit ∧ seen = (s.shutter k).openLimit ∧ t = s.setShutter k { s.shutter k with openLimit := level }) :
    (s.shutter k).limit i = seen ∧ s.setShutter k ((s.shutter k).withLimit i level) = t := by
  rcases h with ⟨rfl, rfl, rfl⟩ | ⟨rfl, rfl, rfl⟩ <;> exact ⟨rfl, rfl⟩

theorem tripSpanning_eq {s v : State} {k : Nat} {c : Crane} (h : v.crane c = s.crane c) :
    v.tripSpanning k c =
      if (s.crane c).permit = true ∧ (s.crane c).touchFirst ≤ 10 * k + 10 ∧ 10 * k + 11 ≤ (s.crane c).touchLast then
        v.latchTrip c .barrier else v := by
  simp only [State.tripSpanning, Bool.and_eq_true, touchSpans_iff, h]

theorem tripSpanning_crane_ne (s : State) (k : Nat) {c y : Crane} (h : y ≠ c) : (s.tripSpanning k c).crane y = s.crane y := by
  unfold State.tripSpanning
  split
  · exact latchTrip_crane_ne s .barrier h
  · rfl

@[simp] theorem moveShutter_crane (s : State) (k : Nat) (x : ShutterState) (cause : ShutCause) (c : Crane) :
    (s.moveShutter k x cause).crane c = s.crane c :=
  moveShutter_leaves (g := fun u => u.crane c) (by simp) (by simp) (by simp) (by simp) s k x cause

theorem exec_limitEdge {s t : State} {k : Fin 3} {i : LimitSwitch} {level seen : Bool} (hs : s.running = true)
    (h : (s.shutter k).limit i = seen) (hne : level ≠ seen) (ht : s.limitEdge k i level = t) :
    exec (.limitEdge k i level) s = .next (finish s t) := by
  refine (whenRunning_run hs).trans ?_
  rw [if_neg (by rw [h]; exact hne.symm), ht]

theorem sopen_closing {s : State} {k : Nat} (h : (s.shutter k).state = .jammed) (hd : s.demanded k = true) :
    s.sopen k = (s.enterClosing k .service, .ack [.named ((s.enterClosing k .service).shutter k).state.code]) := by
  simp [State.sopen, h, hd]

theorem sopen_opening {s : State} {k : Nat} (h : (s.shutter k).state = .jammed ∨ (s.shutter k).state = .closed)
    (hd : s.demanded k = false) :
    s.sopen k = (s.enterOpening k .service, .ack [.named ((s.enterOpening k .service).shutter k).state.code]) := by
  rcases h with h | h <;> simp [State.sopen, h, hd]

theorem sopen_refused {s : State} {k : Nat}
    (h : (s.shutter k).state ≠ .jammed ∧ (s.shutter k).state ≠ .closed ∨ (s.shutter k).state = .closed ∧ s.demanded k = true) :
    s.sopen k = (s, .nak .condition (some 5)) := by
  unfold State.sopen
  cases hst : (s.shutter k).state with
  | jammed => simp [hst] at h
  | closed =>
    have hd : s.demanded k = true := by simpa [hst] using h
    simp only [hd, if_true]
    rfl
  | hold => rfl
  | closing => rfl
  | opening => rfl
  | _ => rfl

/-- Settles O51: the travel expiry, the edge by the shutter's state, SOPEN by the state and the demand. -/
theorem shuttersTravelAndAreOpened : Obligations.ShuttersTravelAndAreOpened := by
  refine ⟨?_, ?_⟩
  · rintro s k x hs rfl
    refine ⟨fun hx ht => ?_, fun h => ?_, fun i level seen t hi => ?_⟩
    · refine (whenRunning_run hs).trans ?_
      rw [if_pos ⟨Option.isSome_iff_ne_none.mpr ht, hx⟩]
    · refine (whenRunning_run hs).trans ?_
      rw [if_neg]
      rintro ⟨h1, h2⟩
      rcases h with ⟨ha, hb⟩ | h
      · exact h2.elim ha hb
      · simp [h] at h1
    · obtain ⟨hseen, ht⟩ := limit_eq hi
      refine ⟨fun hl => ?_, fun hl => ⟨fun hx h1 h2 => ?_, fun hx h1 h2 => ?_, fun hx => ?_, fun hx => ?_, fun hx a b j hj hab => ?_⟩⟩
      · refine (whenRunning_run hs).trans ?_
        rw [if_pos (hseen.trans hl.symm)]
      all_goals refine exec_limitEdge hs hseen hl ?_
      · simp [State.limitEdge, hx, h1, h2, ← ht]
      · simp [State.limitEdge, hx, h1, h2, ← ht]
      · rcases hx with ⟨hx, h⟩ | ⟨hx, h⟩ | hx
        · have hno : ¬(i = .closedLimit ∧ level = true) := by rintro ⟨rfl, rfl⟩; simp at h
          simp [State.limitEdge, hx, hno, ht]
        · have hno : ¬(i = .openLimit ∧ level = true) := by rintro ⟨rfl, rfl⟩; simp at h
          simp [State.limitEdge, hx, hno, ht]
        · simp [State.limitEdge, hx, ht]
      · simp [State.limitEdge, hx, ht, State.drift]
      · have hcrane : ∀ c, j.crane c = s.crane c := fun c => by rw [hj, moveShutter_crane, ← ht, State.setShutter_crane]
        have ha : j.tripSpanning k .A = a := by rw [tripSpanning_eq (hcrane .A), ← hab .A j a (.inl ⟨rfl, rfl, rfl⟩)]
        have hb : a.tripSpanning k .B = b := by
          have hcr : a.crane .B = s.crane .B := by rw [← ha, tripSpanning_crane_ne _ _ (by decide), hcrane]
          rw [tripSpanning_eq hcr, ← hab .B a b (.inr ⟨rfl, rfl, rfl⟩)]
        have hlimit : s.limitEdge k i level = (j.tripSpanning k .A).tripSpanning k .B := by
          rcases hx with hx | hx <;> simp [State.limitEdge, hx, ht, State.drift, hj]
        rw [hlimit, ha, hb]
  · rintro s k x hs rfl
    refine ⟨fun hk => ?_, fun hk demanded hdem => ⟨fun u hu => ?_, fun h => ?_⟩⟩
    · exact serve_refused hs rfl (by simp [ownSopen, okShutter, Nat.not_lt.mpr hk, refuse])
    all_goals
      have hown : ownSopen k s = s.sopen k := by simp [ownSopen, okShutter, hk]
      rw [← demanded_iff] at hdem
    · refine serve_acked hs rfl (hown.trans ?_)
      rcases hu with ⟨hx, hd, rfl⟩ | ⟨hx, hd, rfl⟩
      · exact sopen_closing hx (hdem.mp hd)
      · exact sopen_opening hx (by simpa using fun h => hd (hdem.mpr h))
    · exact serve_refused hs rfl (hown.trans (sopen_refused (h.imp_right fun ⟨hx, hd⟩ => ⟨hx, hdem.mp hd⟩)))

/-! ## Fire resets (R172, R173, R175) -/

theorem resettable_iff (s : State) (z : Nat) :
    s.resettable z = true ↔ (s.zone z).state = .sealed ∨ (s.zone z).state = .obstructed := by
  simp [State.resettable]

theorem zoneOnOpen_returns {s : State} {z : Nat} (hz : (s.zone z).state = .recovering)
    (h : ∀ k, k < 3 → (z = k ∨ z = k + 1) → (s.shutter k).state = .open) : s.zoneOnOpen z = s.returnToService z :=
  if_pos ⟨hz, (allShutters_iff s z .open).mpr h⟩

theorem zoneOnOpen_stands {s : State} {z : Nat}
    (h : ¬((s.zone z).state = .recovering ∧ ∀ k, k < 3 → (z = k ∨ z = k + 1) → (s.shutter k).state = .open)) : s.zoneOnOpen z = s :=
  if_neg fun ⟨hz, ha⟩ => h ⟨hz, (allShutters_iff s z .open).mp ha⟩

theorem demands_false_iff (x : ZoneState) : x.demands = false ↔ x ∈ [.inService, .degraded, .recovering] := by
  cases x <;> decide

theorem releaseDemand_eq (s : State) (k : Nat) :
    s.releaseDemand k =
      if ((s.shutter k).state = .hold ∨ (s.shutter k).state = .closing ∨ (s.shutter k).state = .closed) ∧
          (s.zone k).state ∈ [.inService, .degraded, .recovering] ∧ (s.zone (k + 1)).state ∈ [.inService, .degraded, .recovering]
      then s.enterOpening k .reset else s := by
  simp only [← demands_false_iff]
  by_cases hd : s.demanded k = true
  · have hno : ¬((s.zone k).state.demands = false ∧ (s.zone (k + 1)).state.demands = false) := by
      simpa [State.demanded, or_iff_not_imp_left] using hd
    rw [State.releaseDemand, if_pos hd, if_neg fun h => hno h.2]
  · have hyes : (s.zone k).state.demands = false ∧ (s.zone (k + 1)).state.demands = false := by
      simpa [State.demanded] using hd
    rw [State.releaseDemand, if_neg hd, State.endDemand]
    cases hst : (s.shutter k).state with
    | hold => simp [hyes]
    | closing => simp [hyes]
    | closed => simp [hyes]
    | opening => simp
    | jammed => simp
    | _ => simp

/-- Settles O52: FRST by the zone and its loop; the reset's steps; the end of a demand by the shutter and its two zones. -/
theorem fireResetsAreTaken : Obligations.FireResetsAreTaken := by
  refine ⟨?_, fun s hs => (whenRunning_run hs).trans ?_, ?_, ?_⟩
  · rintro s z ready rfl
    refine ⟨fun hs => ⟨fun hz => ?_, fun hz h1 h2 => ?_, fun hz h hl => ?_, fun hz h hl => ?_⟩, ?_⟩
    · exact serve_refused hs rfl (by simp [ownFrst, okZone, Nat.not_lt.mpr hz, refuse])
    · refine serve_refused hs rfl ?_
      have hr : s.resettable z = false := by
        rw [← Bool.not_eq_true, resettable_iff]
        exact fun h => h.elim h1 h2
      simp [ownFrst, okZone, hz, hr, refuseDetail, detailState]
    · refine serve_refused hs rfl ?_
      simp [ownFrst, okZone, hz, (resettable_iff s z).mpr h, hl, refuseDetail, detailLoop]
    · refine serve_acked hs rfl ?_
      simp [ownFrst, okZone, hz, (resettable_iff s z).mpr h, hl]
    · simp only [State.offerReset, Bool.and_eq_true, resettable_iff, beq_iff_eq]
  · simp only [zoneNumbers, List.foldl_cons, List.foldl_nil]
  · rintro s z t u hz ht hu
    have hsteps : s.takeReset z = u.zoneOnOpen z := by
      rw [State.takeReset, hu, ht]
      interval_cases z <;> rfl
    rw [hsteps]
    split
    · next h => exact zoneOnOpen_returns h.1 h.2
    · next h => exact zoneOnOpen_stands h
  · rintro s k x rfl
    exact releaseDemand_eq s k

end Sys2Proof.Machine

end

/-! # SET (O53) -/

section

namespace Sys2Proof.Machine

/-! ## The parameters (R202) -/

theorem craneParamOf_some {c : Nat} (h1 : c ≤ 9) (h0 : c ≠ 0) : ∃ r, paramOf c = some (.crane .A r) ∧ paramOf (c + 16) = some (.crane .B r) ∧
    paramWidth (.crane .B r) = paramWidth (.crane .A r) ∧ paramRange (.crane .B r) = paramRange (.crane .A r) ∧
    (c ≠ 2 → State.reset.param (.crane .B r) = State.reset.param (.crane .A r)) := by
  obtain rfl | h2 := eq_or_ne c 2
  · exact ⟨.home, rfl, rfl, rfl, rfl, fun h => absurd rfl h⟩
  · have hc : c = 1 ∨ c = 3 ∨ c = 4 ∨ c = 5 ∨ c = 6 ∨ c = 7 ∨ c = 8 ∨ c = 9 := by omega
    rcases hc with rfl | rfl | rfl | rfl | rfl | rfl | rfl | rfl <;> exact ⟨_, rfl, rfl, rfl, rfl, fun _ => rfl⟩

theorem craneParamOf_isSome (c : Nat) : (craneParamOf c).isSome = true ↔ 1 ≤ c ∧ c ≤ 9 := by
  by_cases h : c ≤ 9
  · interval_cases c <;> decide
  · obtain ⟨d, rfl⟩ : ∃ d, c = d + 10 := ⟨c - 10, by omega⟩
    have hnone : craneParamOf (d + 10) = none := rfl
    simp only [hnone, Option.isSome_none, Bool.false_eq_true, false_iff]
    omega

theorem paramOf_ne_none (c : Nat) :
    paramOf c ≠ none ↔ 1 ≤ c ∧ c ≤ 9 ∨ 17 ≤ c ∧ c ≤ 25 ∨ 32 ≤ c ∧ c ≤ 41 ∨ 48 ≤ c ∧ c ≤ 63 ∨ 64 ≤ c ∧ c ≤ 71 := by
  rw [← Option.isSome_iff_ne_none]
  by_cases h1 : c ≤ 9
  · simp only [paramOf, if_pos h1, Option.isSome_map, craneParamOf_isSome]
    omega
  · by_cases h2 : 17 ≤ c ∧ c ≤ 25
    · simp only [paramOf, if_neg h1, if_pos h2, Option.isSome_map, craneParamOf_isSome]
      omega
    · by_cases h3 : c ≤ 71
      · have hmid : c < 72 := by omega
        have hall : ∀ c, c < 72 → ((paramOf c).isSome = true ↔
            1 ≤ c ∧ c ≤ 9 ∨ 17 ≤ c ∧ c ≤ 25 ∨ 32 ≤ c ∧ c ≤ 41 ∨ 48 ≤ c ∧ c ≤ 63 ∨ 64 ≤ c ∧ c ≤ 71) := by decide
        exact hall c hmid
      · have hnone : paramOf c = none := by
          simp only [paramOf, if_neg h1, if_neg h2]
          repeat rw [if_neg (by omega)]
        simp only [hnone, Option.isSome_none, Bool.false_eq_true, false_iff]
        omega

theorem genParams_of {k : Nat} (hk : k < 4) :
    ∀ e ∈ [(48, GenParam.period, some (1, 255), 10), (49, .start, some (0, 255), 0), (50, .width, some (0, 255), 5), (51, .mode, none, 0)],
      paramOf (e.1 + 4 * k) = some (.gen k e.2.1) ∧ paramWidth (.gen k e.2.1) = 1 ∧ paramRange (.gen k e.2.1) = e.2.2.1 ∧
        State.reset.param (.gen k e.2.1) = e.2.2.2 := by
  interval_cases k <;> decide

theorem lineParams_of {n : Nat} (hn : n < 8) :
    paramOf (64 + n) = some (.line n) ∧ paramWidth (.line n) = 1 ∧ paramRange (.line n) = none ∧ State.reset.param (.line n) = 0 := by
  interval_cases n <;> decide

/-! ## SET's checks (R203) -/

theorem modeOf_isSome (v : Nat) : (modeOf v).isSome = true ↔ v < 4 := by
  by_cases h : v < 4
  · have hall : ∀ v, v < 4 → ((modeOf v).isSome = true ↔ v < 4) := by decide
    exact hall v h
  · obtain ⟨d, rfl⟩ : ∃ d, v = d + 4 := ⟨v - 4, by omega⟩
    have hnone : modeOf (d + 4) = none := rfl
    simp [hnone]

theorem sourceOf_isSome (v : Nat) : (sourceOf v).isSome = true ↔ v < 16 := by
  by_cases h : v < 16
  · have hall : ∀ v, v < 16 → ((sourceOf v).isSome = true ↔ v < 16) := by decide
    exact hall v h
  · have hnone : sourceOf v = none := by
      unfold sourceOf
      repeat rw [if_neg (by omega)]
    simp [hnone, h]

theorem codedOk_iff (q : Param) (v : Nat) :
    codedOk q v = true ↔ (∀ k, q = .gen k .mode → v < 4) ∧ ∀ n, q = .line n → v < 16 := by
  cases q with
  | gen k r =>
    cases r with
    | mode => simp [codedOk, modeOf_isSome]
    | period => simp [codedOk]
    | start => simp [codedOk]
    | width => simp [codedOk]
  | line n => simp [codedOk, sourceOf_isSome]
  | _ => simp [codedOk]

theorem craneBusy_iff (s : State) (q : Param) : s.craneBusy q = true ↔ ∃ c r, q = .crane c r ∧ (s.crane c).permit = true := by
  cases q with
  | crane c r => simp [State.craneBusy, and_comm]
  | _ => simp [State.craneBusy]

theorem thresholdsOk_iff (s : State) (q : Param) (w : Nat) :
    s.thresholdsOk q w = true ↔ (q = .shortTh → w < s.settings.alarmTh ∧ s.settings.alarmTh < s.settings.openTh) ∧
      (q = .alarmTh → s.settings.shortTh < w ∧ w < s.settings.openTh) ∧
      (q = .openTh → s.settings.shortTh < s.settings.alarmTh ∧ s.settings.alarmTh < w) := by
  cases q <;> simp [State.thresholdsOk]

/-! ## The parameter taken (R203) -/

theorem modeOf_code {v : Nat} (h : v < 4) (d : CombineMode) : ((modeOf v).getD d).code = v := by interval_cases v <;> rfl

theorem sourceOf_code {v : Nat} (h : v < 16) : ((sourceOf v).getD .low).code = v := by interval_cases v <;> rfl

/-- A parameter put holds its value, in range or in its codes. -/
theorem putParam_param_own (s : State) {q : Param} {w : Nat} (hc : codedOk q w = true) : (s.putParam q w).param q = w := by
  by_cases hr : (paramRange q).isSome = true
  · exact putParam_param_same s w hr
  · cases q with
    | crane c r => cases r <;> exact absurd rfl hr
    | gen k r =>
      cases r with
      | mode =>
        simp only [State.param, State.putParam, setGenSettings_genSettings, if_true, GenSettings.get, GenSettings.put]
        exact modeOf_code ((modeOf_isSome w).mp hc) _
      | period => exact absurd rfl hr
      | start => exact absurd rfl hr
      | width => exact absurd rfl hr
    | line n =>
      simp only [State.param, State.putParam, State.setLine_line, if_true]
      exact sourceOf_code ((sourceOf_isSome w).mp hc)
    | _ => exact absurd rfl hr

/-- A coded parameter takes the value as it is; a numeric one has no codes. -/
theorem codedOk_taken {q : Param} {v : Nat} (h : codedOk q v = true) : codedOk q (valueTaken q v) = true := by
  cases q with
  | gen k r => cases r <;> exact h
  | line n => exact h
  | _ => exact h

/-- What a parameter's change reaches: the settings, the lines, the cranes, the scheduler's two cranes and the generators. -/
theorem putParam_frame (s : State) (q : Param) (w : Nat) :
    ∃ a l, s.putParam q w = { s with settings := a, lines := l } := by
  cases q with
  | crane c r => cases c <;> exact ⟨_, s.lines, rfl⟩
  | line n => exact ⟨s.settings, _, rfl⟩
  | _ => exact ⟨_, s.lines, rfl⟩

theorem paramEffect_frame (s : State) (q : Param) :
    ∃ a b g x y, s.paramEffect q = { s with craneA := a, craneB := b, gens := g, sched := { s.sched with a := x, b := y } } := by
  cases q with
  | crane c r => cases r <;> cases c <;> exact ⟨_, _, s.gens, s.sched.a, s.sched.b, rfl⟩
  | split => exact ⟨s.craneA, s.craneB, s.gens, _, _, rfl⟩
  | gen k r => exact ⟨s.craneA, s.craneB, _, s.sched.a, s.sched.b, rfl⟩
  | _ => exact ⟨s.craneA, s.craneB, s.gens, s.sched.a, s.sched.b, rfl⟩

/-- A new CPR drops its crane's index phase, and no other crane record changes (R94). -/
theorem paramEffect_crane (s : State) (q : Param) (c : Crane) :
    (s.paramEffect q).crane c =
      if q = .crane c .cpr then { s.crane c with ref := (s.crane c).ref.map (fun r => { r with phase := none }) } else s.crane c := by
  cases q with
  | crane c' r =>
    cases r with
    | cpr =>
      simp only [State.paramEffect, State.dropPhase, State.setCrane_crane]
      by_cases h : c = c'
      · simp [h]
      · rw [if_neg h, if_neg]
        simpa using Ne.symm h
    | _ => simp [State.paramEffect]
  | split => simp [State.paramEffect, State.trimCursor]
  | gen k r => simp [State.paramEffect]
  | _ => simp [State.paramEffect]

/-- A cursor beyond its crane's new share is set to 0, and no other part of the scheduler changes (R150). -/
theorem paramEffect_schedCrane (s : State) (q : Param) (x : Crane) :
    (s.paramEffect q).schedCrane x =
      if q = .split ∧ s.shareSize x ≤ (s.schedCrane x).cursor then { s.schedCrane x with cursor := 0 } else s.schedCrane x := by
  have htrim : ∀ size : Nat, { s.schedCrane x with cursor := if (s.schedCrane x).cursor < size then (s.schedCrane x).cursor else 0 } =
      if size ≤ (s.schedCrane x).cursor then { s.schedCrane x with cursor := 0 } else s.schedCrane x := fun size => by
    split
    · next h => rw [if_neg (Nat.not_le.mpr h)]
    · next h => rw [if_pos (Nat.not_lt.mp h)]
  cases q with
  | split =>
    rw [if_congr (and_iff_right rfl) rfl rfl, ← htrim]
    cases x <;> rfl
  | crane c r => cases r <;> simp [State.paramEffect, State.dropPhase]
  | gen k r => simp [State.paramEffect]
  | _ => simp [State.paramEffect]

theorem paramEffect_gen (s : State) (q : Param) (k : Nat) :
    ((∃ r, q = .gen k r) → (s.paramEffect q).gen k = ⟨0, false⟩) ∧ ((∀ r, q ≠ .gen k r) → (s.paramEffect q).gen k = s.gen k) := by
  refine ⟨?_, fun h => ?_⟩
  · rintro ⟨r, rfl⟩
    simp only [State.paramEffect, State.setGen_gen, if_true]
    rfl
  · cases q with
    | gen j r =>
      have hne : k ≠ j := by
        rintro rfl
        exact h r rfl
      simp [State.paramEffect, State.setGen_gen, hne]
    | crane c r => cases r <;> simp [State.paramEffect, State.dropPhase]
    | split => simp [State.paramEffect, State.trimCursor]
    | _ => simp [State.paramEffect]

theorem lineSourceCodes_of : ∀ e ∈ lineSourceCodes, sourceOf e.1 = some e.2 ∧ e.2.code = e.1 := by decide

/-- The parameter taken: the value, every other parameter, and the frame (R203). -/
theorem takeParam_param {s : State} {q : Param} {w : Nat} (hc : codedOk q w = true) (q' : Param) :
    (s.takeParam q w).param q' = if q' = q then w else s.param q' := by
  unfold State.takeParam
  split
  · next h => split <;> simp_all
  · rw [paramEffect_param]
    split
    · next h => rw [h, putParam_param_own s hc]
    · next h => exact putParam_param_ne s w h

theorem takeParam_frame (s : State) (q : Param) (w : Nat) :
    s.takeParam q w =
        { s with settings := (s.takeParam q w).settings, lines := (s.takeParam q w).lines, craneA := (s.takeParam q w).craneA
                 craneB := (s.takeParam q w).craneB, sched := (s.takeParam q w).sched, gens := (s.takeParam q w).gens } ∧
      (s.takeParam q w).sched = { s.sched with a := (s.takeParam q w).sched.a, b := (s.takeParam q w).sched.b } := by
  unfold State.takeParam
  split
  · exact ⟨rfl, rfl⟩
  · obtain ⟨v, l, hput⟩ := putParam_frame s q w
    obtain ⟨a, b, g, x, y, heff⟩ := paramEffect_frame (s.putParam q w) q
    rw [heff, hput]
    exact ⟨rfl, rfl⟩

theorem ownSet_some {s : State} {code v : Nat} {q : Param} (h : paramOf code = some q) : ownSet (code, v) s = s.setParam code q v := by
  simp [ownSet, h]

/-- The changed parameter's record of the cranes, the scheduler and the generators. -/
theorem takeParam_new {s : State} {q : Param} {w : Nat} (h : w ≠ s.param q) :
    s.takeParam q w = (s.putParam q w).paramEffect q := if_neg h

theorem putParam_crane (s : State) (q : Param) (w : Nat) (c : Crane) : (s.putParam q w).crane c = s.crane c := by
  obtain ⟨a, l, h⟩ := putParam_frame s q w
  rw [h]
  cases c <;> rfl

/-- Settles O53: the parameter table; SET's three checks; the parameter taken, field by field. -/
theorem setTakesTheValue : Obligations.SetTakesTheValue := by
  refine ⟨⟨?_, fun c h1 h0 => craneParamOf_some h1 h0, paramOf_ne_none, fun k hk => genParams_of hk, fun n hn => lineParams_of hn⟩, ?_, ?_, ?_⟩
  · simp only [List.forall_mem_cons, List.not_mem_nil, false_implies, implies_true, and_true]
    refine ⟨?_, ?_, ?_, ?_, ?_, ?_, ?_, ?_, ?_, ?_, ?_, ?_, ?_, ?_, ?_, ?_, ?_, ?_, ?_, ?_⟩ <;> exact ⟨_, rfl, rfl, rfl, rfl⟩
  · intro s k e he
    have hmode : ∀ m : CombineMode, ∀ e ∈ [(0, CombineMode.self), (1, .and), (2, .or), (3, .alternate)], m.code = e.1 ↔ m = e.2 := by
      intro m
      cases m <;> decide
    exact hmode _ e he
  · intro s n e he h
    rw [State.param, h]
    exact (lineSourceCodes_of e he).2
  · intro s code v hs
    refine ⟨fun h => serve_refused hs rfl (by simp [ownSet, h, refuse]), ?_⟩
    intro q w hq hw coded busy ordered hcoded hbusy hordered
    have htaken : valueTaken q v = w := hw.symm
    rw [← codedOk_iff] at hcoded
    rw [← craneBusy_iff] at hbusy
    rw [← thresholdsOk_iff] at hordered
    refine ⟨fun h => ?_, fun hc hb => ?_, fun hc hb ho => ?_, fun hc hb ho => ?_⟩
    · refine serve_refused hs rfl ((ownSet_some hq).trans ?_)
      have hbad : codedOk q v = false := by simpa using fun e => h (hcoded.mpr e)
      simp [State.setParam, hbad, refuse]
    · refine serve_refused hs rfl ((ownSet_some hq).trans ?_)
      simp [State.setParam, hcoded.mp hc, hbusy.mp hb, refuse]
    all_goals have hfree : s.craneBusy q = false := by simpa using fun e => hb (hbusy.mpr e)
    · refine serve_refused hs rfl ((ownSet_some hq).trans ?_)
      have hbad : s.thresholdsOk q w = false := by simpa using fun e => ho (hordered.mpr e)
      simp [State.setParam, hcoded.mp hc, hfree, htaken, hbad, refuse]
    · have hcw : codedOk q w = true := htaken ▸ codedOk_taken (hcoded.mp hc)
      refine ⟨s.takeParam q w, serve_acked hs rfl ((ownSet_some hq).trans ?_), ?_, fun q' h => ?_, (takeParam_frame s q w).1,
        (takeParam_frame s q w).2, fun h => if_pos h, fun h => ⟨fun n x hn hx => ?_, fun c => ?_, fun x size hx => ?_, fun k => ?_⟩⟩
      · simp [State.setParam, hcoded.mp hc, hfree, htaken, hordered.mp ho]
      · rw [takeParam_param hcw, if_pos rfl]
      · rw [takeParam_param hcw, if_neg h]
      all_goals rw [takeParam_new h]
      · subst hn
        have hwv : w = v := htaken.symm
        have hline : ((s.putParam (.line n) w).paramEffect (.line n)).line n = ((sourceOf w).getD .low) := by
          simp [State.paramEffect, State.putParam]
        rw [hline, hwv, (lineSourceCodes_of _ hx).1]
        rfl
      · rw [paramEffect_crane, putParam_crane]
      · have hsize : q = .split → (s.putParam q w).shareSize x = size := by
          rintro rfl
          rcases hx with ⟨rfl, rfl⟩ | ⟨rfl, rfl⟩ <;> rfl
        have hsched : (s.putParam q w).schedCrane x = s.schedCrane x := by
          obtain ⟨a, l, hput⟩ := putParam_frame s q w
          rw [hput]
          cases x <;> rfl
        rw [paramEffect_schedCrane, hsched]
        exact if_congr (and_congr_right fun hsplit => by rw [hsize hsplit]) rfl rfl
      · have hgen : (s.putParam q w).gen k = s.gen k := by
          obtain ⟨a, l, hput⟩ := putParam_frame s q w
          rw [hput]
          rfl
        rw [← hgen]
        exact paramEffect_gen _ q k

end Sys2Proof.Machine

end

/-! # Signals and transmit lines (O54), the causes of a start (O55), and what a start leaves (O56) -/

section

namespace Sys2Proof.Machine

/-! ## Generators and outputs (R183 to R185) -/

theorem tickGen_gen (s : State) (k j : Nat) :
    (s.tickGen k).gen j = if j = k then (s.gen k).tick (s.genSettings k).period else s.gen j := by
  simp [State.tickGen, State.setGen_gen]

theorem tickGen_genSettings (s : State) (k j : Nat) : (s.tickGen k).genSettings j = s.genSettings j := rfl

theorem tick_eq (g : GenPhase) (period : Nat) : g.tick period = if g.t + 1 < period then ⟨g.t + 1, g.odd⟩ else ⟨0, !g.odd⟩ := rfl

/-- The four generators take the tick, each from its own phase (R184). -/
theorem generatorTick_gen (s : State) (k : Nat) :
    ([0, 1, 2, 3].foldl (fun t k => t.tickGen k) s).gen k =
      if k < 4 then (s.gen k).tick (s.genSettings k).period else s.gen k := by
  simp only [List.foldl_cons, List.foldl_nil, tickGen_gen, tickGen_genSettings]
  by_cases h : k < 4
  · interval_cases k <;> rfl
  · rw [if_neg h]
    repeat rw [if_neg (by omega)]

theorem genNeighbour_eq {k : Nat} (hk : k < 4) : genNeighbour k = (k + 3) % 4 := by interval_cases k <;> rfl

theorem genOutput_eq (s : State) {k : Nat} (hk : k < 4) :
    s.genOutput k =
      match (s.genSettings k).mode with
      | .self => s.rawPattern k
      | .and => s.rawPattern k && s.rawPattern ((k + 3) % 4)
      | .or => s.rawPattern k || s.rawPattern ((k + 3) % 4)
      | .alternate => if (s.gen k).odd then s.rawPattern ((k + 3) % 4) else s.rawPattern k := by
  rw [State.genOutput, genNeighbour_eq hk] <;> rfl

theorem trouble_iff (s : State) :
    s.trouble = true ↔ (∃ z, z < 4 ∧ ((s.loop z).filtered = .openFault ∨ (s.loop z).filtered = .shortFault)) ∨
      (∃ k, k < 3 ∧ (s.shutter k).state = .jammed) ∨ ∃ z, z < 4 ∧ (s.zone z).state = .obstructed := by
  have hzones : zoneNumbers = List.range 4 := rfl
  have hshutters : shutterNumbers = List.range 3 := rfl
  simp only [State.trouble, Bool.or_eq_true, List.any_eq_true, hzones, hshutters, List.mem_range, isFault_iff, beq_iff_eq, or_assoc]

theorem anyAlarm_iff (s : State) : s.sourceValue .anyAlarm = true ↔ ∃ z, z < 4 ∧ (s.zone z).latch = true := by
  have hzones : zoneNumbers = List.range 4 := rfl
  simp only [State.sourceValue, hzones, List.any_eq_true, List.mem_range]

theorem signalLine_running {s : State} (h : s.running = true) (n : Nat) : s.signalLine n = s.sourceValue (s.line n) := by
  simp [State.signalLine, h]

/-! ## The transmit lines (R188, R189) -/

/-- A concatenation of blocks of one length, read at a place of one block. -/
theorem flatMap_getElem? {α β : Type} {f : α → List β} {w : Nat} (hw : ∀ x, (f x).length = w) (l : List α) {n j : Nat} (hj : j < w) :
    (l.flatMap f)[w * n + j]? = l[n]?.bind fun x => (f x)[j]? := by
  induction l generalizing n with
  | nil => simp
  | cons x l ih =>
    cases n with
    | zero => simp [List.flatMap_cons, List.getElem?_append_left ((hw x).symm ▸ hj : j < (f x).length)]
    | succ n =>
      have hge : (f x).length ≤ w * (n + 1) + j := by
        rw [hw, Nat.mul_succ]
        omega
      have hsub : w * (n + 1) + j - (f x).length = w * n + j := by
        rw [hw, Nat.mul_succ]
        omega
      rw [List.flatMap_cons, List.getElem?_append_right hge, hsub, ih]
      rfl

theorem flatMap_length {α β : Type} {f : α → List β} {w : Nat} (hw : ∀ x, (f x).length = w) (l : List α) :
    (l.flatMap f).length = w * l.length := by
  induction l with
  | nil => rfl
  | cons x l ih => simp [List.flatMap_cons, hw, ih, Nat.mul_succ, Nat.add_comm]

theorem characterBits_length (e : Byte × Bool) : (characterBits e.1 e.2).length = 11 := by simp [characterBits]

/-- The line of a message, bit time by bit time of one character (R188). -/
theorem lineBits_getElem? (m : Message) {n j : Nat} (hj : j < 11) :
    m.lineBits[11 * n + j]? = m.bytes[n]?.bind fun x => (characterBits x (decide (n = 0)))[j]? := by
  rw [Message.lineBits, flatMap_getElem? characterBits_length _ hj, Message.characters, List.getElem?_map, List.getElem?_zipIdx]
  cases m.bytes[n]? with
  | none => rfl
  | some x =>
    have hhead : (0 + n == 0) = decide (n = 0) := by simp [beq_eq_decide]
    simp only [Option.map_some, Option.bind_some, hhead]

theorem lineBits_length (m : Message) : m.lineBits.length = 11 * m.bytes.length := by
  rw [Message.lineBits, flatMap_length characterBits_length]
  simp [Message.characters]

theorem characterBits_data (x : Byte) (marker : Bool) {j : Nat} (hj : j < 8) :
    (characterBits x marker)[1 + j]? = some (x.getLsbD j) := by
  rw [Nat.add_comm, characterBits, List.getElem?_cons_succ, List.getElem?_append_left (by simpa using hj)]
  simp [hj]

theorem lineLevel_sending {s : State} {p : Port} {m : Message} (h : s.running = true) (hm : (s.port p).sending = some m) (i : Nat) :
    s.lineLevel p i = m.lineBits[i]?.getD true := by
  simp [State.lineLevel, h, hm, List.getD_eq_getElem?_getD]

/-- Settles O54: generators, outputs by their conditions, the transmit line by characters. -/
theorem signalsFollowTheState : Obligations.SignalsFollowTheState := by
  refine ⟨fun s hs => ⟨[0, 1, 2, 3].foldl (fun t k => t.tickGen k) s, whenRunning_run hs, ?_, fun k => generatorTick_gen s k⟩, ?_⟩
  · simp only [List.foldl_cons, List.foldl_nil, State.tickGen, State.setGen]
  intro s raw out trouble hraw hout htrouble
  have hr : ∀ k, raw k = s.rawPattern k := fun k => by rw [hraw]; rfl
  have ho : ∀ k, k < 4 → out k = s.genOutput k := fun k hk => by
    rw [genOutput_eq s hk, hout]
    simp only [hr] <;> rfl
  have ht : trouble = s.trouble := Bool.eq_iff_iff.mpr (htrouble.trans (trouble_iff s).symm)
  refine ⟨fun hs => ⟨fun n => ⟨fun h => ?_, fun h => ?_, fun k hk => ⟨fun h => ?_, fun h => ?_⟩, fun z h => ?_, fun h => ?_, fun h => ?_⟩, ?_,
    fun z => ?_, fun k => ⟨?_, ?_⟩, fun c => ?_⟩, fun hs => ⟨fun n => ?_, ?_, fun z => ?_, fun k => ⟨?_, ?_⟩, fun c => ?_⟩, fun p => ⟨?_, ?_⟩⟩
  · rw [signalLine_running hs, h]
    rfl
  · rw [signalLine_running hs, h]
    rfl
  · rw [signalLine_running hs, h, ho k hk]
    rfl
  · rw [signalLine_running hs, h, ho k hk]
    rfl
  · rw [signalLine_running hs, h]
    rfl
  · rw [signalLine_running hs, h, anyAlarm_iff]
  · rw [signalLine_running hs, h, ht]
    rfl
  · simp [State.troubleOutput, hs, ht]
  · simp [State.zoneSealedOutput, hs, State.zoneSealed, beq_eq_decide]
  · simp [State.closeOutput, hs, beq_eq_decide]
  · simp [State.openOutput, hs, beq_eq_decide]
  · simp [State.driveEnable, hs]
  · simp [State.signalLine, hs]
  · simp [State.troubleOutput, hs]
  · simp [State.zoneSealedOutput, hs]
  · simp [State.closeOutput, hs]
  · simp [State.openOutput, hs]
  · simp [State.driveEnable, hs]
  · rintro (h | h) i <;> simp [State.lineLevel, h]
  · intro m hs hm
    refine ⟨fun i hi => ?_, fun n x hx => ⟨?_, fun j hj => ?_, ?_, ?_⟩⟩ <;> rw [lineLevel_sending hs hm]
    · rw [List.getElem?_eq_none (by rwa [lineBits_length])]
      rfl
    · rw [show 11 * n = 11 * n + 0 from rfl, lineBits_getElem? m (by omega), hx]
      rfl
    · rw [Nat.add_assoc, lineBits_getElem? m (by omega), hx, Option.bind_some, characterBits_data x _ hj]
      rfl
    · rw [lineBits_getElem? m (by omega), hx]
      rfl
    · rw [lineBits_getElem? m (by omega), hx]
      rfl

/-! ## The causes of a start (R198, R205, R206) -/

theorem isRestart_iff (m : Message) : m.isRestart = true ↔ ∃ fields, m = .ack .rstrt fields := by
  cases m <;> simp [Message.isRestart]

theorem sent_restart {s : State} {p : Port} {m : Message} (l : StartLevels)
    (h : ∃ fields, p = .S ∧ s.portS.stopped = true ∧ m = .ack .rstrt fields) : s.sent p l m = s.warmStart l := by
  obtain ⟨fields, hp, hst, hm⟩ := h
  exact if_pos ⟨hp, hst, (isRestart_iff m).mpr ⟨fields, hm⟩⟩

theorem sent_next {s : State} {p : Port} {m : Message} (l : StartLevels)
    (h : ∀ fields, p ≠ .S ∨ s.portS.stopped = false ∨ m ≠ .ack .rstrt fields) :
    s.sent p l m = (s.setPort p { s.port p with sending := none }).pump := by
  refine if_neg ?_
  rintro ⟨hp, hst, hr⟩
  obtain ⟨fields, hm⟩ := (isRestart_iff m).mp hr
  rcases h fields with h | h | h
  · exact h hp
  · simp [h] at hst
  · exact h hm

theorem exec_transmitComplete {s : State} {p : Port} {l : StartLevels} {m : Message} (hs : s.running = true)
    (hm : (s.port p).sending = some m) : exec (.transmitComplete ⟨p, l⟩) s = .next (s.sent p l m) := by
  refine (whenRunning_run hs).trans ?_
  simp only [hm]

/-- Settles O55: each cause by the state of the supply; the end of a message by what waits. -/
theorem startsAreTakenAtTheirCauses : Obligations.StartsAreTakenAtTheirCauses := by
  refine ⟨fun s v l => ⟨fun h => ?_, fun h => ⟨?_, ?_⟩, fun h => ?_⟩, fun s => ⟨rfl, fun h => ?_, fun h => ?_, fun h => ?_, fun h => ?_⟩,
    fun s hs => serve_acked hs rfl rfl, fun s p l m hs => ⟨fun h => ?_, fun hm => ⟨fun h => ?_, fun h => ?_⟩⟩⟩
  · simp [exec, execResetReleased, h]
  · simp [exec, execResetReleased, h]
  · simp [exec, execResetReleased, h]
  · rcases h with h | h <;> simp [exec, execResetReleased, h]
  · simp [exec, execPowerOn, h, State.setPower]
  · simp [exec, execPowerOn, h]
  · simp [exec, execResetAsserted, h, State.setPower]
  · simp [exec, execResetAsserted, h]
  · refine (whenRunning_run hs).trans ?_
    simp only [h]
  · rw [exec_transmitComplete hs hm, sent_restart l h]
  · have hport : ∀ q, ((s.setPort p { s.port p with sending := none }).pump).port q =
        (if q = p then { s.port p with sending := none } else s.port q).pump := fun q => by rw [pump_port, State.setPort_port]
    refine ⟨_, (exec_transmitComplete hs hm).trans (congrArg _ (sent_next l h)), ?_, fun q => ?_, fun r hr => ?_, fun n rest hsl hq => ?_,
      fun hsl hq => ?_, fun q hq => ?_⟩
    · simp [SameBlocks]
    · rw [hport, pump_receiver]
      split
      · next e => rw [e]; rfl
      · rfl
    · rw [hport, if_pos rfl]
      simp [LinkPort.pump, hr]
    · rw [hport, if_pos rfl]
      simp [LinkPort.pump, hsl, hq]
    · rw [hport, if_pos rfl]
      simp [LinkPort.pump, hsl, hq]
    · rw [hport, if_neg hq]

/-! ## What a start leaves (R40, R163, R187, R201, R206) -/

theorem binAtWarm_eq (b : Bin) :
    b.atWarm =
      { b with
        order := none
        comps :=
          match b.place with
          | .atBay _ _ => b.comps
          | _ => b.comps.map (fun c => if c = .pendingPick then .occupied else c) } := by
  unfold Bin.atWarm
  cases hp : b.place <;> simp [BinPlace.isAtBay, Bin.revertPicks, hp]

theorem shutterAtStart_state (x : LimitLevels) :
    Shutter.atStart x =
      { state :=
          match x.closedLimit, x.openLimit with
          | true, false => .closed
          | false, true => .open
          | _, _ => .jammed
        timer := none, closedLimit := x.closedLimit, openLimit := x.openLimit } := by
  obtain ⟨a, b⟩ := x
  cases a <;> cases b <;> rfl

theorem portAtStart_eq (x : Straps) :
    LinkPort.atStart x =
      { straps := x
        rate :=
          match x.first, x.second with
          | false, false => .r19200
          | true, false => .r57600
          | false, true => .r115200
          | true, true => .r230400
        afterBreak := false, pendingLoss := false, fifo := [], partialMsg := none, item := none, stopped := false
        slot := none, sending := none, queue := []
        flags := ⟨false, false, false, false, false, false⟩ } := by
  obtain ⟨a, b⟩ := x
  cases a <;> cases b <;> rfl

/-- Every block that a start sets, whatever the retention memory holds (R206). -/
theorem startBlocks_crane (s : State) (l : StartLevels) {c : Crane} {i : CraneInputs} (h : c = .A ∧ i = l.inputsA ∨ c = .B ∧ i = l.inputsB) :
    (s.startBlocks l).crane c =
      .atStart ((s.startBlocks l).craneSettings c).mFixed (2400 * endSegment c) (2400 * endSegment c + 2399) (endSegment c)
        (s.crane c).carried i := by
  rcases h with ⟨rfl, rfl⟩ | ⟨rfl, rfl⟩ <;> rfl

theorem startBlocks_shutter (s : State) (l : StartLevels) {k : Nat} {x : LimitLevels}
    (h : k = 0 ∧ x = l.limits0 ∨ k = 1 ∧ x = l.limits1 ∨ k = 2 ∧ x = l.limits2) : (s.startBlocks l).shutter k = .atStart x := by
  have hget : (s.startBlocks l).shutter k = tableGet .atTop (shuttersAt l) k := rfl
  rw [hget]
  rcases h with ⟨rfl, rfl⟩ | ⟨rfl, rfl⟩ | ⟨rfl, rfl⟩ <;> simp [shuttersAt, tableGet_set]

theorem startBlocks_port (s : State) (l : StartLevels) {p : Port} {x : Straps}
    (h : p = .C ∧ x = l.strapsC ∨ p = .A ∧ x = l.strapsA ∨ p = .B ∧ x = l.strapsB ∨ p = .S ∧ x = l.strapsS) :
    (s.startBlocks l).port p = .atStart x := by
  rcases h with ⟨rfl, rfl⟩ | ⟨rfl, rfl⟩ | ⟨rfl, rfl⟩ | ⟨rfl, rfl⟩ <;> rfl

theorem startBlocks_carried (s : State) (l : StartLevels) (c : Crane) : ((s.startBlocks l).crane c).carried = (s.crane c).carried := by
  cases c <;> rfl

theorem warmStart_bin {s : State} (h : TablesWf s) (l : StartLevels) (n : Nat) : (s.warmStart l).bin n = (s.bin n).atWarm :=
  tableGet_map _ _ rfl _ h.bins n

theorem warmStart_cell {s : State} (h : TablesWf s) (l : StartLevels) (n : Nat) : (s.warmStart l).cell n = (s.cell n).atWarm :=
  tableGet_map _ _ rfl _ h.cells n

/-- Settles O56: the blocks that both starts set; the directory of a warm start read through its map; the cold values. -/
theorem aStartSetsEveryBlock : Obligations.AStartSetsEveryBlock := by
  refine ⟨?_, ?_, ?_⟩
  · intro s w l hwf hw
    obtain ⟨t, rfl, hpend⟩ : ∃ t : State, w = t.startBlocks l ∧ t.pending = s.pending := by
      rcases hw with rfl | rfl
      · exact ⟨_, rfl, rfl⟩
      · exact ⟨_, rfl, rfl⟩
    refine ⟨fun i => rfl, rfl, fun n => rfl, fun z => rfl, fun z => rfl, fun k => rfl, fun n => rfl, rfl, hpend, rfl, fun c i h => ?_,
      fun k x h => ?_, fun p x h => ?_⟩
    · rw [startBlocks_carried]
      exact startBlocks_crane t l h
    · exact (startBlocks_shutter t l h).trans (shutterAtStart_state x)
    · exact (startBlocks_port t l h).trans (portAtStart_eq x)
  · rintro s w l hwf rfl
    have htab := (tablesWf_iff s).mp hwf
    refine ⟨fun n => (warmStart_bin htab l n).trans (binAtWarm_eq _), fun n => (warmStart_cell htab l n).trans ?_, fun st b => ?_,
      fun c => ?_, rfl, rfl, ?_⟩
    · unfold Cell.atWarm
      cases (s.cell n).state <;> rfl
    · have hbay : (s.warmStart l).bay st b = (s.bay st b).atWarm := tableGet_map _ _ rfl _ htab.bays _
      rw [hbay, Bay.atWarm]
      cases (s.bay st b).state <;> rfl
    · exact startBlocks_carried _ l c
    · have hcold : (s.warmStart l).coldStart = s.coldStart.afterWarm := rfl
      rw [hcold]
      cases s.coldStart <;> rfl
  · rintro s w l rfl
    have hsched : (s.coldStartAt l).sched = Scheduler.cold.atStart 60 := rfl
    refine ⟨fun n => rfl, fun n => rfl, fun st b => rfl, fun c => ?_, rfl, ?_, rfl⟩
    · exact (startBlocks_carried _ l c).trans (by cases c <;> rfl)
    · rw [hsched]
      decide

end Sys2Proof.Machine

end

/-! # Characters, the assembler and its items (O57, O58) -/

section

namespace Sys2Proof.Machine

/-! ## The assembler (R195) -/

/-- The character at the head of the FIFO ends the partial message: a length above 48, or the second check character. -/
def LinkPort.ends (q : LinkPort) : Bool := q.lengthEnds || q.checkEnds

theorem takeChar_fifo (q : LinkPort) (c : RxChar) : (q.takeChar c).fifo = q.fifo := by
  unfold LinkPort.takeChar
  split <;> rfl

theorem assemble_stands {q : LinkPort} (h : q.item ≠ none ∨ q.fifo = [] ∨ q.ends = true) : q.assemble = q := by
  unfold LinkPort.assemble
  cases hf : q.fifo with
  | nil => rfl
  | cons c rest =>
    have hstop : (q.item.isSome || q.lengthEnds || q.checkEnds) = true := by
      rcases h with h | h | h
      · simp [Option.isSome_iff_ne_none.mpr h]
      · simp [hf] at h
      · rw [Bool.or_assoc, ← LinkPort.ends, h, Bool.or_true]
    rw [List.length_cons, assembleSteps, if_pos hstop]

/-- The assembler takes the next character, and goes on. -/
theorem assemble_takes {q : LinkPort} {c : RxChar} {rest : List RxChar} (hi : q.item = none) (hf : q.fifo = c :: rest)
    (he : q.ends = false) : q.assemble = (({ q with fifo := rest } : LinkPort).takeChar c).assemble := by
  have hgo : ¬(q.item.isSome || q.lengthEnds || q.checkEnds) = true := by
    rw [Bool.or_assoc, ← LinkPort.ends, he, hi]
    simp
  rw [LinkPort.assemble, hf, List.length_cons, assembleSteps, if_neg hgo, hf, LinkPort.assemble, takeChar_fifo]

theorem ends_hunting {q : LinkPort} (h : q.partialMsg = none) : q.ends = false := by
  simp [LinkPort.ends, LinkPort.lengthEnds, LinkPort.checkEnds, h]

theorem ends_marked {q : LinkPort} {c : RxChar} {rest : List RxChar} (hf : q.fifo = c :: rest) (hm : c.marker = true) :
    q.ends = false := by
  cases hp : q.partialMsg <;> simp [LinkPort.ends, LinkPort.lengthEnds, LinkPort.checkEnds, hp, hf, hm]

theorem lengthEnds_iff {q : LinkPort} {c : RxChar} {rest : List RxChar} {m : Partial} (hp : q.partialMsg = some m)
    (hf : q.fifo = c :: rest) (hm : c.marker = false) : q.lengthEnds = true ↔ m.bytes.length = 1 ∧ 48 < c.data.toNat := by
  have hlen : decide (maxRxLength < c.data.toNat) = true ↔ 48 < c.data.toNat := decide_eq_true_iff
  simp only [LinkPort.lengthEnds, hp, hf, hm, Bool.not_false, Bool.true_and, Bool.and_eq_true, beq_iff_eq, hlen]

theorem checkEnds_iff {q : LinkPort} {c : RxChar} {rest : List RxChar} {m : Partial} (hp : q.partialMsg = some m)
    (hf : q.fifo = c :: rest) (hm : c.marker = false) :
    q.checkEnds = true ↔ 2 ≤ m.bytes.length ∧ m.bytes.length = m.length + 3 := by
  simp [LinkPort.checkEnds, hp, hf, hm]

theorem ends_iff {q : LinkPort} {c : RxChar} {rest : List RxChar} {m : Partial} (hp : q.partialMsg = some m)
    (hf : q.fifo = c :: rest) (hm : c.marker = false) :
    q.ends = true ↔ m.bytes.length = 1 ∧ 48 < c.data.toNat ∨ 2 ≤ m.bytes.length ∧ m.bytes.length = m.length + 3 := by
  rw [LinkPort.ends, Bool.or_eq_true, lengthEnds_iff hp hf hm, checkEnds_iff hp hf hm]

/-! ## Characters and breaks (R192 to R194) -/

theorem frameNoisy_iff (f : RxFrame) :
    frameNoisy f = true ↔
      ∃ t ∈ [f.d0, f.d1, f.d2, f.d3, f.d4, f.d5, f.d6, f.d7, f.marker, f.stop], ¬(t.a = t.b ∧ t.b = t.c) := by
  rw [frameNoisy, List.any_eq_true]
  refine exists_congr fun t => and_congr_right fun _ => ?_
  simp [disagree, imp_iff_not_or]

theorem noteNoise_eq (q : LinkPort) (v : Bool) : q.noteNoise v = { q with flags := { q.flags with noise := q.flags.noise || v } } := by
  cases v <;> simp [LinkPort.noteNoise]

theorem frameData_eq (f : RxFrame) :
    frameData f = BitVec.ofBoolListLE [majority f.d0, majority f.d1, majority f.d2, majority f.d3, majority f.d4, majority f.d5,
      majority f.d6, majority f.d7] := rfl

theorem eightBits_zero (a b c d e f g h : Bool) :
    BitVec.ofBoolListLE [a, b, c, d, e, f, g, h] = 0 ↔
      a = false ∧ b = false ∧ c = false ∧ d = false ∧ e = false ∧ f = false ∧ g = false ∧ h = false := by
  constructor
  · intro hz
    have hbit : ∀ i, [a, b, c, d, e, f, g, h].getD i false = false := fun i => by
      rw [← BitVec.getLsbD_ofBoolListLE, hz, BitVec.ofNat_eq_ofNat, BitVec.getLsbD_zero]
    exact ⟨hbit 0, hbit 1, hbit 2, hbit 3, hbit 4, hbit 5, hbit 6, hbit 7⟩
  · rintro ⟨rfl, rfl, rfl, rfl, rfl, rfl, rfl, rfl⟩
    rfl

theorem frameIsBreak_iff (f : RxFrame) :
    frameIsBreak f = true ↔ frameData f = 0 ∧ majority f.marker = false ∧ majority f.stop = false := by
  rw [frameData_eq]
  refine Iff.trans ?_ (and_congr_left' (eightBits_zero ..)).symm
  simp [frameIsBreak, frameDataSamples, and_assoc]

/-- A character that is no break enters the FIFO or is lost (R194). -/
theorem arrive_eq (q : LinkPort) (f : RxFrame) :
    q.arrive f =
      ({ q with flags := { q.flags with framing := q.flags.framing || !majority f.stop } } : LinkPort).enter (frameData f)
        (majority f.marker) (!majority f.stop) := by
  unfold LinkPort.arrive
  cases majority f.stop <;> simp

theorem enter_taken {q : LinkPort} (h : q.fifo.length < 64) (d : Byte) (m x : Bool) :
    q.enter d m x = { q with fifo := q.fifo ++ [⟨d, m, x, q.pendingLoss⟩], pendingLoss := false } := if_pos h

theorem enter_lost {q : LinkPort} (h : 64 ≤ q.fifo.length) (d : Byte) (m x : Bool) :
    q.enter d m x = { q with pendingLoss := true, flags := { q.flags with overrun := true } } := if_neg (Nat.not_lt.mpr h)

theorem exec_received {s : State} {p : Port} {f : RxFrame} (hs : s.running = true) (ha : (s.port p).afterBreak = false)
    (hc : majority f.start = false) : exec (.characterReceived p f) s = .next (finish s (s.receive p f)) := by
  refine (whenRunning_run hs).trans ?_
  rw [if_neg]
  simp [ha, frameConfirmed, hc]

/-- Settles O57: the frame by its bits, the FIFO by its room, the assembler by its next character. -/
theorem charactersAreReceivedAndAssembled : Obligations.CharactersAreReceivedAndAssembled := by
  refine ⟨?_, fun q c rest => ⟨fun h => ?_, fun hi hf => ⟨fun hp => ?_, fun m hp => ⟨fun hm => ?_, fun hm => ⟨fun h => ?_, fun h => ?_⟩⟩⟩⟩⟩
  · rintro s p q broken hs rfl hbroken
    refine ⟨fun ha => ⟨?_, fun f => ?_⟩, whenRunning_run hs, fun ha => ?_, fun f bit noisy d flags ha hbit => ?_⟩
    · refine (whenRunning_run hs).trans ?_
      rw [if_pos ha]
    · refine (whenRunning_run hs).trans ?_
      rw [if_pos (by simp [ha])]
    · refine (whenRunning_run hs).trans ?_
      rw [if_neg (by simp [ha]), hbroken]
      cases p <;> rfl
    · obtain rfl : bit = majority := hbit
      refine ⟨fun hst => ?_, fun hst hn hd hflags => ?_⟩
      · refine (whenRunning_run hs).trans ?_
        rw [if_pos (by simp [frameConfirmed, hst])]
      · have hnoisy : noisy = frameNoisy f := Bool.eq_iff_iff.mpr (hn.trans (frameNoisy_iff f).symm)
        have hdata : d = frameData f := hd.trans (frameData_eq f).symm
        have hnote : (s.port p).noteNoise (frameNoisy f) = { s.port p with flags := flags } := by rw [noteNoise_eq, hflags, hnoisy]
        subst hdata
        refine ⟨fun h1 h2 h3 => ?_, fun h framed hframed => ⟨fun hroom => ?_, fun hfull => ?_⟩⟩ <;>
          rw [exec_received hs ha hst, State.receive, hnote]
        · have hbreak : frameIsBreak f = true := (frameIsBreak_iff f).mpr ⟨h1, h2, h3⟩
          simp only [hbreak, if_true, State.takeBreak, State.setPort_port_same, State.setPort_setPort, hbroken]
          cases p <;> rfl
        all_goals
          have hno : frameIsBreak f = false := by
            rw [← Bool.not_eq_true, frameIsBreak_iff]
            rintro ⟨h1, h2, h3⟩
            simp [h1, h2, h3] at h
          simp only [hno, Bool.false_eq_true, if_false, State.setPort_port_same, State.setPort_setPort, arrive_eq, hframed]
        · rw [enter_taken (by exact hroom)]
        · rw [enter_lost (by exact hfull)]
  · exact assemble_stands (h.imp_right .inl)
  · rw [assemble_takes hi hf (ends_hunting hp), LinkPort.takeChar]
    cases hm : c.marker <;> simp [hp]
  · rw [assemble_takes hi hf (ends_marked hf hm), LinkPort.takeChar]
    simp [hp, hm]
  · exact assemble_stands (.inr (.inr ((ends_iff hp hf hm).mpr h)))
  · have he : q.ends = false := by
      rw [← Bool.not_eq_true, ends_iff hp hf hm]
      exact h
    rw [assemble_takes hi hf he, LinkPort.takeChar]
    simp [hp, hm]

/-! ## Items (R195 to R197) -/

theorem append_toNat (a b : Byte) : (a ++ b).toNat = a.toNat * 256 + b.toNat := by
  rw [BitVec.toNat_append, ← Nat.shiftLeft_add_eq_or_of_lt b.isLt, Nat.shiftLeft_eq]

/-- The two bytes of a check are its halves. -/
theorem numBytes_check (x : BitVec 16) (a b : Byte) : numBytes 2 x.toNat = [a, b] ↔ x = a ++ b := by
  have hx := x.isLt
  have ha := a.isLt
  have hb := b.isLt
  have hbytes : numBytes 2 x.toNat = [BitVec.ofNat 8 (x.toNat / 256), BitVec.ofNat 8 x.toNat] := by simp [numBytes]
  simp only [hbytes, List.cons.injEq, and_true, BitVec.toNat_eq, append_toNat, BitVec.toNat_ofNat]
  omega

/-- The item of a complete message (R196). -/
theorem finishedItem_eq {code len : Byte} {body : List Byte} {hi : Byte} (c : Byte) (damaged : Bool) :
    finishedItem (code :: len :: (body ++ [hi]) ++ [c]) damaged =
      if damaged = true then .refused code .line
      else if crc16 (code :: len :: body) = hi ++ c then .message code body else .refused code .check := by
  have hlist : code :: len :: (body ++ [hi]) ++ [c] = (code :: len :: body) ++ [hi, c] := by simp
  have hlen : ((code :: len :: body) ++ [hi, c]).length - 2 = (code :: len :: body).length := by simp
  unfold finishedItem
  rw [hlist]
  simp only [hlen, List.take_left', List.drop_left', numBytes_check]
  rfl

theorem goodMessage_none {s : State} {p : Port} (h : craneOfPort p = none) : s.goodMessage p = s := by
  simp [State.goodMessage, h]

theorem goodMessage_crane {s : State} {p : Port} {x : Crane} (h : craneOfPort p = some x) :
    s.goodMessage p = if (s.port p).item.any Item.isGood then s.restartKeepalive x else s := by
  simp [State.goodMessage, h]

/-- The codes of R191, in the order of its table. -/
theorem requestCodes_eq :
    requestKinds.map (fun k => (kindCode k).toNat) = List.range' 1 7 ++ List.range' 0x10 8 ++ List.range' 0x20 9 ++ List.range' 0x30 18 := by
  decide

theorem kindOfCode_none_iff (code : Byte) :
    kindOfCode code = none ↔
      code.toNat ∉ List.range' 1 7 ++ List.range' 0x10 8 ++ List.range' 0x20 9 ++ List.range' 0x30 18 := by
  rw [← requestCodes_eq, kindOfCode, List.find?_eq_none, List.mem_map, not_exists]
  refine forall_congr' fun k => ?_
  rw [not_and, beq_iff_eq, BitVec.toNat_eq]

theorem nakItem_eq (s : State) (p : Port) (code : Byte) (r : Reason) :
    s.nakItem p code r =
      finish s (s.setPort p { ({ s.port p with item := none } : LinkPort).assemble with slot := some (.nak code r none) }) := by
  simp [State.nakItem, State.respond, LinkPort.takeItem]

theorem ready_iff (q : LinkPort) : q.ready = true ↔ q.slot = none ∧ q.stopped = false := by
  simp [LinkPort.ready]

/-- The end of a message (R195, R196), with no length character above 48. -/
theorem exec_complete {s : State} {p : Port} {m : Partial} {c : RxChar} {rest : List RxChar} (hs : s.running = true)
    (hi : (s.port p).item = none) (hm : (s.port p).partialMsg = some m) (hf : (s.port p).fifo = c :: rest)
    (he : (s.port p).checkEnds = true) :
    exec (.messageComplete p) s = .next ((s.setPort p ((s.port p).complete m c rest)).goodMessage p) := by
  refine (whenRunning_run hs).trans ?_
  rw [if_pos ⟨by simp [hi], he⟩, hm, hf]

theorem noEnd_of {q : LinkPort} (h : q.partialMsg = none ∨ ∀ c rest, q.fifo = c :: rest → c.marker = true) :
    q.checkEnds = false ∧ q.lengthEnds = false := by
  rw [← Bool.or_eq_false_iff, Bool.or_comm, ← LinkPort.ends]
  rcases h with h | h
  · exact ends_hunting h
  · cases hf : q.fifo with
    | nil => cases hp : q.partialMsg <;> simp [LinkPort.ends, LinkPort.lengthEnds, LinkPort.checkEnds, hp, hf]
    | cons c rest => exact ends_marked hf (h c rest hf)

/-- Settles O58: the item by the last character of its message, and the answers to the items of R197 steps 1 and 2. -/
theorem itemsAreMadeAndRefused : Obligations.ItemsAreMadeAndRefused := by
  refine ⟨?_, ?_⟩
  · rintro s p q hs rfl
    refine ⟨fun code len body hi before c rest damaged item hnone hm hlen hf hmark hdam hitem u hu => ?_,
      fun code damaged c rest hnone hm hf hmark hlong => ?_, fun h => ⟨?_, ?_⟩⟩
    · have hends : (s.port p).checkEnds = true := (checkEnds_iff hm hf hmark).mpr (by
        simp only [Partial.length, List.length_cons, List.length_append, List.length_nil, List.getD_cons_succ, List.getD_cons_zero]
        omega)
      have hdone : s.setPort p ((s.port p).complete ⟨code :: len :: (body ++ [hi]), before⟩ c rest) = u := by
        rw [hu, LinkPort.complete, finishedItem_eq, ← hdam, ← hitem]
      have hport : (u.port p).item = some item := by rw [hu, State.setPort_port_same]
      have hcrane : ∀ x, u.crane x = s.crane x := fun x => by rw [hu, State.setPort_crane]
      rw [exec_complete hs hnone hm hf hends, hdone]
      refine ⟨fun x hx hgood hrun => ?_, fun h => ?_⟩
      · rw [goodMessage_crane hx, hport, hgood, Option.any_some, Item.isGood, if_pos rfl, restartKeepalive_eq, hcrane, hrun, if_pos rfl]
      · cases hx : craneOfPort p with
        | none => rw [goodMessage_none hx]
        | some x =>
          rw [goodMessage_crane hx, hport, Option.any_some]
          split
          · rename_i hgood
            have hrun : (s.crane x).keepaliveRunning = false := by
              rcases h with h | h | h
              · rw [hx] at h
                cases h
              · refine absurd ?_ h
                rw [hitem] at hgood ⊢
                split at hgood
                · cases hgood
                · rename_i hd
                  rw [if_neg hd]
                  split at hgood
                  · rename_i hc
                    rw [if_pos hc]
                  · cases hgood
              · exact h x hx
            rw [restartKeepalive_eq, hcrane, hrun, if_neg Bool.false_ne_true, ← hcrane, State.setCrane_self]
          · rfl
    · refine (whenRunning_run hs).trans ?_
      rw [if_pos ⟨by simp [hnone], (lengthEnds_iff hm hf hmark).mpr ⟨rfl, hlong⟩⟩, hm, hf]
      rfl
    all_goals
      refine (whenRunning_run hs).trans ?_
      rw [if_neg]
      rintro ⟨hi, he⟩
      rcases h with h | h
      · exact h (Option.isNone_iff_eq_none.mp hi)
      · simp [noEnd_of h] at he
  · rintro s p q code hs rfl
    refine ⟨fun hslot hstop r u hu => ⟨fun hi => ?_, fun body hi => ⟨fun hr hcode => ?_, fun hcode => ?_⟩⟩, fun h => ?_, fun h => ?_⟩
    · refine (whenRunning_run hs).trans ?_
      rw [if_pos ((ready_iff _).mpr ⟨hslot, hstop⟩), hi, hu]
      exact congrArg Host.Outcome.next (nakItem_eq ..)
    · refine (whenRunning_run hs).trans ?_
      rw [if_pos ((ready_iff _).mpr ⟨hslot, hstop⟩), hi, hu, hr]
      simp only [(kindOfCode_none_iff code).mpr hcode, if_true, nakItem_eq]
    · refine (whenRunning_run hs).trans ?_
      rw [if_pos ((ready_iff _).mpr ⟨hslot, hstop⟩), hi]
      have hkind : ¬kindOfCode code = none := fun hno => (kindOfCode_none_iff code).mp hno hcode
      simp only [hkind, if_false]
    all_goals
      refine (whenRunning_run hs).trans ?_
      split
      · rename_i hready
        obtain ⟨hslot, hstop⟩ := (ready_iff _).mp hready
        split
        · rename_i c x hi
          rcases h with h | h | h
          · exact absurd hslot h
          · simp [hstop] at h
          · exact absurd hi (h c x)
        · rfl
        · rfl
      · rfl

end Sys2Proof.Machine

end

/-! # STAT and the rail reads (O59) -/

section

namespace Sys2Proof.Machine

theorem liveCount_eq (s : State) : s.liveCount = (List.range 64).countP (fun i => (s.slot i).order.isSome) := by
  rw [State.liveCount, State.liveOrders, List.length_filterMap_eq_countP]
  exact congrArg₂ List.countP (funext fun i => Option.isSome_map ..) rfl

theorem troubleOutput_running {s : State} (h : s.running = true) : s.troubleOutput = s.trouble := by
  rw [State.troubleOutput, h, Bool.true_and]

theorem zoneSealedOutput_running {s : State} (h : s.running = true) (z : Nat) :
    s.zoneSealedOutput z = decide ((s.zone z).state = .sealed) := by
  rw [State.zoneSealedOutput, h, Bool.true_and]
  exact beq_eq_decide ..

theorem refCode_eq (r : Option Reference) : (if r.isSome then 1 else 0) = if r = none then 0 else 1 := by
  cases r <;> rfl

/-- The boundary shutter of a segment is the only one whose boundary it is (R6). -/
theorem boundaryShutter_some {n k : Nat} (hk : k < 3) (h : n = 10 * k + 10 ∨ n = 10 * k + 11) : boundaryShutter n = some k := by
  have hall : ∀ k, k < 3 → boundaryShutter (10 * k + 10) = some k ∧ boundaryShutter (10 * k + 11) = some k := by decide
  rcases h with rfl | rfl
  · exact (hall k hk).1
  · exact (hall k hk).2

theorem boundaryShutter_none {n : Nat} (h : ∀ k, k < 3 → n ≠ 10 * k + 10 ∧ n ≠ 10 * k + 11) : boundaryShutter n = none := by
  rw [boundaryShutter, List.find?_eq_none]
  intro k hk
  have hk' : k < 3 := List.mem_range.mp hk
  simp [shutterWest, shutterEast, h k hk']

theorem zoneSegments_eq {z : Nat} (hz : z < 4) : zoneSegments z = (List.range 42).filter (fun n => zoneOfSegment n == z) := by
  have hall : ∀ z, z < 4 → zoneSegments z = (List.range 42).filter (fun n => zoneOfSegment n == z) := by decide
  exact hall z hz

theorem sealCount_eq (s : State) {z : Nat} (hz : z < 4) (x : Seal) :
    s.sealCount z x = (List.range 42).countP (fun n => zoneOfSegment n == z && (s.seg n).sealState == x) := by
  rw [State.sealCount, zoneSegments_eq hz, List.countP_filter]
  simp only [Bool.and_comm]

theorem zoneShutters_flatMap {α : Type} (f : Nat → List α) :
    ∀ z, z < 4 → (zoneShutters z).flatMap f = match z with | 0 => f 0 | 1 => f 0 ++ f 1 | 2 => f 1 ++ f 2 | _ => f 2
  | 0, _ => List.flatMap_singleton ..
  | 1, _ => congrArg (f 0 ++ ·) (List.flatMap_singleton ..)
  | 2, _ => congrArg (f 1 ++ ·) (List.flatMap_singleton ..)
  | 3, _ => List.flatMap_singleton ..

theorem okZone_iff (z : Nat) : okZone z = true ↔ z < 4 := decide_eq_true_iff

/-- STAT's own part (R200): the port's flags are cleared, and on port S the indicator. -/
theorem ownStat_eq {s : State} (p : Port) (hs : s.running = true) :
    ownStat p () s =
      ({ s with coldStart := if p = Port.S then .clear else s.coldStart }.setPort p { s.port p with flags := .clear },
        .ack
          [.num 1 (s.port p).flags.mask, .named s.coldStart.code, .named s.sched.wing.code, .zoneSet s.sched.verifySet,
            .num 1 ((List.range 64).countP (fun i => (s.slot i).order.isSome)), .num 2 s.sched.epoch.toNat,
            .num 1 s.sched.a.credits, .num 2 s.sched.a.cursor, flagField s.sched.a.lag, .num 1 s.sched.b.credits,
            .num 2 s.sched.b.cursor, flagField s.sched.b.lag, .indication s.trouble]) := by
  refine Prod.ext ?_ ?_
  · cases p <;> rfl
  · simp [ownStat, State.statFields, schedFields, liveCount_eq, troubleOutput_running hs]

theorem boundaryFields_eq {s : State} {n : Nat} {boundary : List Field}
    (h : (∃ k, k < 3 ∧ (n = 10 * k + 10 ∨ n = 10 * k + 11) ∧ boundary = [.present, .num 1 k, .named (s.shutter k).state.code]) ∨
      (∀ k, k < 3 → n ≠ 10 * k + 10 ∧ n ≠ 10 * k + 11) ∧ boundary = [.absent]) : s.boundaryFields n = boundary := by
  rw [State.boundaryFields]
  rcases h with ⟨k, hk, hn, rfl⟩ | ⟨hn, rfl⟩
  · rw [boundaryShutter_some hk hn]
  · rw [boundaryShutter_none hn]

/-- Settles O59: each read's fields, read off the records. -/
theorem statAndRailReadsAnswer : Obligations.StatAndRailReadsAnswer := by
  refine ⟨?_, fun s p hs => ⟨?_, fun n hn => ?_, fun n boundary hn hb => ?_, fun n hn => ?_, ?_, fun z level hz => ?_⟩⟩
  · rintro s p f hs rfl
    exact serve_acked hs (read_taken p (by decide)) (ownStat_eq p hs.1)
  · rintro c r rfl
    refine serve_acked hs (read_taken p (by decide)) ?_
    rw [ownRdcrn, craneOfCode_craneCode]
    simp only [State.craneFields, refCode_eq]
  · refine serve_refused hs (read_taken p (by decide)) ?_
    rw [ownRdcrn, craneOfCode_none hn]
    rfl
  · refine serve_acked hs (read_taken p (by decide)) ?_
    rw [ownRdseg, if_pos ((okSegment_iff n).mpr hn), State.segFields, boundaryFields_eq hb]
    rfl
  · refine serve_refused hs (read_taken p (by decide)) ?_
    rw [ownRdseg, if_neg (by rw [okSegment_iff]; omega)]
    rfl
  · rintro z level sh count hz rfl rfl
    refine serve_acked hs (read_taken p (by decide)) ?_
    have hrun : ({ s with manualRelease := level } : State).running = true := hs.1
    rw [ownRdzone, if_pos ((okZone_iff z).mpr hz)]
    simp only [State.setManual, State.zoneFields, zoneShutters_flatMap _ z hz, zoneSealedOutput_running hrun,
      troubleOutput_running hrun, sealCount_eq _ hz] <;> rfl
  · refine serve_refused hs (read_taken p (by decide)) ?_
    rw [ownRdzone, if_neg (by exact mt (okZone_iff z).mp (by omega))]
    rfl

end Sys2Proof.Machine

end

/-! # Fields out of bounds (O60) -/

section

namespace Sys2Proof.Machine

/-! ## A value outside its bounds (R9, R10) -/

theorem okBin_false {n : Nat} (h : 4096 ≤ n) : okBin n = false := decide_eq_false (by omega)
theorem okCell_false {n : Nat} (h : 3840 ≤ n) : okCell n = false := decide_eq_false (by omega)
theorem okSlot_false {n : Nat} (h : 64 ≤ n) : okSlot n = false := decide_eq_false (by omega)
theorem okSegment_false {n : Nat} (h : 42 ≤ n) : okSegment n = false := decide_eq_false (by omega)
theorem okCompartment_false {n : Nat} (h : 16 ≤ n) : okCompartment n = false := decide_eq_false (by omega)
theorem okBay_false {n : Nat} (h : 2 ≤ n) : okBay n = false := decide_eq_false (by omega)
theorem okLevel_false {n : Nat} (h : 12 ≤ n) : okLevel n = false := decide_eq_false (by omega)
theorem okAuthority_false {n : Nat} (h : 4 ≤ n) : okAuthority n = false := decide_eq_false (by omega)

theorem okOptCell_false {cell : Option Nat} (h : ∃ n, cell = some n ∧ 3840 ≤ n) : okOptCell cell = false := by
  obtain ⟨n, rfl, hn⟩ := h
  exact okCell_false hn

theorem okResult_false {r : TagResult} (h : ∃ b, r = .tag b ∧ 4096 ≤ b) : okResult r = false := by
  obtain ⟨b, rfl, hb⟩ := h
  exact okBin_false hb

theorem stationOfCode_none {n : Nat} (h : 2 ≤ n) : stationOfCode n = none := by
  match n, h with
  | n + 2, _ => rfl

theorem unableReasonOf_none {n : Nat} (h : 5 ≤ n) : unableReasonOf n = none := by
  match n, h with
  | n + 5, _ => rfl

theorem okSlot_and_false {n : Nat} {b : Bool} {P : Prop} (hb : P → b = false) (h : 64 ≤ n ∨ P) : (okSlot n && b) = false :=
  Bool.and_eq_false_iff.mpr (h.imp okSlot_false hb)

theorem okSegments_false {lo hi : Nat} (h : 42 ≤ lo ∨ 42 ≤ hi) : (okSegment lo && okSegment hi) = false :=
  Bool.and_eq_false_iff.mpr (h.imp okSegment_false okSegment_false)

/-! ## The owners refuse it -/

theorem ownFetch_range {s : State} {b st : Nat} {picks : List Nat} {loan : BitVec 32} {a : Nat}
    (h : 4096 ≤ b ∨ 2 ≤ st ∨ 16 < picks.length ∨ (∃ j ∈ picks, 16 ≤ j) ∨ 4 ≤ a) :
    ownFetch ⟨b, st, picks, loan, a⟩ s = refuse s .range := by
  unfold ownFetch
  cases hst : stationOfCode st with
  | none => rfl
  | some x =>
    refine if_neg ?_
    simp only [Bool.not_eq_true, Bool.and_eq_false_iff]
    rcases h with h | h | h | ⟨j, hj, h⟩ | h
    · exact .inl (.inl (.inl (okBin_false h)))
    · rw [stationOfCode_none h] at hst
      cases hst
    · exact .inl (.inr (decide_eq_false (by omega)))
    · exact .inl (.inl (.inr (List.all_eq_false.mpr ⟨j, hj, by simp [okCompartment_false h]⟩)))
    · exact .inr (okAuthority_false h)

theorem deskRequest_range {s : State} {atBay : Bool} {x y : Comp} {after : Nat → State → State} {b j : Nat}
    (h : 4096 ≤ b ∨ 16 ≤ j) : deskRequest atBay x y after (b, j) s = refuse s .range := by
  have hbad : (okBin b && okCompartment j) = false := Bool.and_eq_false_iff.mpr (h.imp okBin_false okCompartment_false)
  rw [deskRequest, hbad]
  rfl

theorem ownRelbay_range {s : State} {st bay : Nat} (h : 2 ≤ st ∨ 2 ≤ bay) : ownRelbay (st, bay) s = refuse s .range := by
  unfold ownRelbay
  cases hst : stationOfCode st with
  | none => rfl
  | some x =>
    rcases h with h | h
    · rw [stationOfCode_none h] at hst
      cases hst
    · simp [okBay_false h]

theorem ownUnable_range {s : State} {p : Port} {sl g reason : Nat} {cell : Option Nat}
    (h : 64 ≤ sl ∨ 5 ≤ reason ∨ ∃ n, cell = some n ∧ 3840 ≤ n) : ownUnable p ⟨sl, g, reason, cell⟩ s = refuse s .range := by
  unfold ownUnable
  cases hr : unableReasonOf reason with
  | none => rfl
  | some x =>
    rcases h with h | h | h
    · simp [okSlot_false h]
    · rw [unableReasonOf_none h] at hr
      cases hr
    · simp [okOptCell_false h]

theorem ownFrel_range {s : State} {c lo hi : Nat} (h : 2 ≤ c ∨ 42 ≤ lo ∨ 42 ≤ hi) : ownFrel (c, lo, hi) s = refuse s .range := by
  unfold ownFrel
  cases hc : craneOfCode c with
  | none => rfl
  | some x =>
    rcases h with h | h
    · rw [craneOfCode_none h] at hc
      cases hc
    · simp [okSegments_false h]

/-- CANCEL, by the port it comes on. -/
theorem execCancel_range {s : State} {p : Port} {sl g : Nat} (hs : s.serves p) (hp : portRefusal p .cancel = none) (h : 64 ≤ sl) :
    execCancel p sl g s = .next (refused s p .cancel .range none) := by
  rw [execCancel]
  split
  · rename_i hS
    subst hS
    exact serve_refused hs hp (by simp [ownServiceCancel, okSlot_false h, refuse])
  · exact serve_refused hs hp (by simp [ownCancel, okSlot_false h, refuse])

/-- Settles O60: on a port that takes the request, its owner refuses the field. -/
theorem outOfBoundsFieldsAreRefused : Obligations.OutOfBoundsFieldsAreRefused := by
  intro s p k i hs hk h
  have hp := portRefusal_eq_none hk
  rcases h with ⟨b, st, picks, loan, a, rfl, rfl, h⟩ | ⟨b, j, hkind, h⟩ | ⟨st, rfl, rfl, h⟩ | ⟨st, bay, rfl, rfl, h⟩ |
    ⟨sl, g, hkind, h⟩ | ⟨level, rfl, rfl, h⟩ | ⟨sl, g, cell, rfl, rfl, h⟩ | ⟨sl, g, reason, cell, rfl, rfl, h⟩ |
    ⟨sl, g, r, rfl, rfl, h⟩ | ⟨lo, hi, hkind, h⟩ | ⟨c, lo, hi, rfl, rfl, h⟩ | ⟨b, cell, rfl, rfl, h⟩ | ⟨n, hkind, h⟩ |
    ⟨b, hkind, h⟩ | ⟨b, n, a, rfl, rfl, h⟩
  · exact serve_refused hs hp (ownFetch_range h)
  · rcases hkind with ⟨rfl, rfl⟩ | ⟨rfl, rfl⟩ | ⟨rfl, rfl⟩ | ⟨rfl, rfl⟩ <;> exact serve_refused hs hp (deskRequest_range h)
  · exact serve_refused hs hp (by rw [ownSlot, stationOfCode_none h]; rfl)
  · exact serve_refused hs hp (ownRelbay_range h)
  · rcases hkind with ⟨rfl, rfl⟩ | ⟨rfl, rfl, rfl⟩ | ⟨rfl, rfl⟩ | ⟨rfl, rfl⟩
    · exact execCancel_range hs hp h
    · exact serve_refused hs hp (by simp [ownServiceCancel, okSlot_false h, refuse])
    · exact serve_refused hs hp (by simp [ownRdord, okSlot_false h, refuse])
    · exact serve_refused hs hp (by simp [ownLoad, okSlot_false h, refuse])
  · exact serve_refused hs hp (by simp [ownNext, okLevel_false h, refuse])
  · exact serve_refused hs hp (by simp [ownDone, okSlot_and_false okOptCell_false h, refuse])
  · exact serve_refused hs hp (ownUnable_range h)
  · exact serve_refused hs hp (by simp [ownTag, okSlot_and_false okResult_false h, refuse])
  · have hbad := okSegments_false h
    rcases hkind with ⟨rfl, rfl⟩ | ⟨rfl, rfl⟩
    · exact serve_refused hs hp (by simp [ownRsv, hbad, refuse])
    · exact serve_refused hs hp (by simp [ownRel, hbad, refuse])
  · exact serve_refused hs hp (ownFrel_range h)
  · have hbad : (okBin b && okOptCell cell) = false := Bool.and_eq_false_iff.mpr (h.imp okBin_false okOptCell_false)
    exact serve_refused hs hp (by simp [ownAssign, hbad, refuse])
  · have hbad := okCell_false h
    rcases hkind with ⟨rfl, rfl⟩ | ⟨rfl, rfl⟩ | ⟨rfl, rfl⟩
    · exact serve_refused hs hp (by simp [ownToUnverified, hbad, refuse])
    · exact serve_refused hs hp (by simp [ownBlock, hbad, refuse])
    · exact serve_refused hs hp (by simp [ownToUnverified, hbad, refuse])
  · have hbad := okBin_false h
    rcases hkind with ⟨rfl, rfl⟩ | ⟨rfl, rfl⟩ | ⟨l, rfl, rfl⟩
    · exact serve_refused hs hp (by simp [ownQuar, hbad, refuse])
    · exact serve_refused hs hp (by simp [ownQuar, hbad, refuse])
    · exact serve_refused hs hp (by simp [ownSetcmp, hbad, refuse])
  · have hbad : (okBin b && okCell n && okAuthority a) = false := by
      rw [Bool.and_assoc, Bool.and_eq_false_iff, Bool.and_eq_false_iff]
      exact h.imp okBin_false (Or.imp okCell_false okAuthority_false)
    exact serve_refused hs hp (by simp [ownMove, hbad, refuse])

end Sys2Proof.Machine

end

/-! # The ledger: what its laws read of a state (O14) -/

section

namespace Sys2Proof.Machine

/-! ## The ledger of a state -/

/-- What the laws of the ledger read of an order. -/
structure Job where
  kind : OrderKind
  bin : Option Nat
  source : Place
  dest : Option Place
  crane : Crane
  state : OrderState

def Order.job (o : Order) : Job := ⟨o.kind, o.bin, o.source, o.dest, o.crane, o.state⟩

/-- `Order.Shaped` of what a job keeps of its order. -/
def Job.Shaped (j : Job) : Prop :=
  match j.kind with
  | .fetch => j.bin ≠ none ∧ (∃ n, j.source = .cell n) ∧ ∃ st, j.dest = some (.station st) ∧ j.crane = craneOf st
  | .stow =>
    j.bin ≠ none ∧ ((∃ st k, j.source = .bay st k) ∨ ∃ c, j.source = .crane c) ∧ ∀ d, j.dest = some d → ∃ n, d = .cell n
  | .move =>
    j.bin ≠ none ∧ ((∃ n, j.source = .cell n) ∨ ∃ st k, j.source = .bay st k) ∧ ∀ d, j.dest = some d → ∃ n, d = .cell n
  | .verify => j.bin = none ∧ (∃ n, j.source = .cell n) ∧ j.dest = none

theorem job_shaped (o : Order) : o.job.Shaped ↔ o.Shaped := by
  unfold Job.Shaped Order.Shaped Order.job
  cases o.kind <;> rfl

/-- The records that the laws of the ledger speak of: of a bay only the bin it records. -/
@[ext] structure Ledger where
  place : Nat → BinPlace
  comps : Nat → List Comp
  handle : Nat → Option Handle
  cell : Nat → CellState
  bay : Station → Nat → Option Nat
  job : Handle → Option Job
  carried : Crane → Option Nat
  active : Crane → Option Handle
  orphan : Crane → Bool

def State.ledger (s : State) : Ledger where
  place b := (s.bin b).place
  comps b := (s.bin b).comps
  handle b := (s.bin b).order
  cell n := (s.cell n).state
  bay st k := (s.bay st k).state.bin
  job h := (s.orderOf h).map Order.job
  carried c := (s.crane c).carried
  active c := (s.crane c).active
  orphan c := (s.crane c).orphan

/-- The laws of the ledger, but for two marks that an operation leaves until it ends: a bin in `lost` need not stand at its order's
source, and the destination cell of an order in `broken` need not be reserved for it. -/
structure Ledger.SoundBut (L : Ledger) (lost : Nat → Prop) (broken : Handle → Prop) : Prop where
  stored : ∀ b n, L.place b = .stored n ↔ L.cell n = .occupied b
  atBay : ∀ b st k, L.place b = .atBay st k ↔ L.bay st k = some b
  onCrane : ∀ b c, L.place b = .onCrane c ↔ L.carried c = some b
  sixteen : ∀ b, (L.comps b).length = 16
  pending : ∀ b, .pendingPick ∈ L.comps b →
    (∃ st k, L.place b = .atBay st k) ∨ ∃ h j, L.handle b = some h ∧ L.job h = some j ∧ j.kind = .fetch
  claimed : ∀ b, .claimed ∈ L.comps b → ∃ st k, L.place b = .atBay st k
  slots : ∀ h j, L.job h = some j → h.slot < 64
  shaped : ∀ h j, L.job h = some j → j.Shaped
  bound : ∀ b h, L.handle b = some h ↔ ∃ j, L.job h = some j ∧ j.bin = some b
  reserved : ∀ n h, L.cell n = .reserved h → ∃ j, L.job h = some j ∧ (j.kind = .stow ∨ j.kind = .move) ∧ j.dest = some (.cell n)
  reserves : ∀ n h j, L.job h = some j → (j.kind = .stow ∨ j.kind = .move) → j.dest = some (.cell n) →
    L.cell n = .reserved h ∨ broken h
  source : ∀ h j b, L.job h = some j → j.bin = some b → j.state ≠ .loaded → lost b ∨
    (∀ n, j.source = .cell n → L.place b = .stored n) ∧ ∀ st k, j.source = .bay st k → L.place b = .atBay st k
  active : ∀ c h, L.active c = some h ↔ ∃ j, L.job h = some j ∧ j.crane = c ∧ j.state ≠ .queued
  loaded : ∀ c h j, L.active c = some h → L.job h = some j → j.state = .loaded → j.bin ≠ none ∧ L.carried c = j.bin
  dispatched : ∀ c h j, L.active c = some h → L.job h = some j → j.state = .dispatched → L.carried c = none
  orphan : ∀ c, L.orphan c = true ↔ L.active c = none ∧ L.carried c ≠ none

/-- The laws of the ledger. -/
def Ledger.Sound (L : Ledger) : Prop := L.SoundBut (fun _ => False) (fun _ => False)

theorem bayBin_iff (x : BayState) (b : Nat) : x.bin = some b ↔ x = .occupied b ∨ x = .outbound b := by
  cases x <;> simp [BayState.bin]

theorem ledger_job_iff (s : State) (h : Handle) (j : Job) : s.ledger.job h = some j ↔ ∃ o, s.orderOf h = some o ∧ o.job = j :=
  Option.map_eq_some_iff

theorem exists_job {s : State} {h : Handle} {P : Job → Prop} :
    (∃ j, s.ledger.job h = some j ∧ P j) ↔ ∃ o, s.orderOf h = some o ∧ P o.job := by
  simp only [ledger_job_iff]
  exact ⟨fun ⟨_, ⟨o, ho, e⟩, hp⟩ => ⟨o, ho, e ▸ hp⟩, fun ⟨o, ho, hp⟩ => ⟨_, ⟨o, ho, rfl⟩, hp⟩⟩

theorem forall_job {s : State} {h : Handle} {P : Job → Prop} :
    (∀ j, s.ledger.job h = some j → P j) ↔ ∀ o, s.orderOf h = some o → P o.job := by
  simp only [ledger_job_iff]
  exact ⟨fun hp o ho => hp _ ⟨o, ho, rfl⟩, fun hp _ ⟨o, ho, e⟩ => e ▸ hp o ho⟩

theorem orderOf_slot {s : State} {h : Handle} {o : Order} (ho : s.orderOf h = some o) : (s.slot h.slot).order = some o := by
  rw [State.orderOf] at ho
  split at ho
  · exact ho
  · cases ho

theorem orderOf_handleAt (s : State) (i : Nat) : s.orderOf (s.handleAt i) = (s.slot i).order := if_pos rfl

/-- The laws of `LedgerSound` are the ledger's. -/
theorem ledgerSound_iff (s : State) : LedgerSound s ↔ s.ledger.Sound := by
  constructor
  · intro h
    obtain ⟨hdir, hord, hcrn⟩ := h
    exact {
      stored := hdir.stored
      atBay := fun b st k => (hdir.atBay b st k).trans (bayBin_iff _ b).symm
      onCrane := hdir.onCrane
      sixteen := hdir.sixteen
      pending := fun b hb => (hdir.pending b hb).imp_right fun ⟨h, o, hb, ho, hk⟩ => ⟨h, o.job, hb, (ledger_job_iff ..).mpr ⟨o, ho, rfl⟩, hk⟩
      claimed := hdir.claimed
      slots := fun h => forall_job.mpr fun o ho => by
        by_contra hlt
        have hfree := hord.slots h.slot (by omega)
        rw [orderOf_slot ho] at hfree
        cases hfree
      shaped := fun h => forall_job.mpr fun o ho => (job_shaped o).mpr (hord.shaped h o ho)
      bound := fun b h => (hord.bound b h).trans (exists_job (P := fun j => j.bin = some b)).symm
      reserved := fun n h hn => exists_job.mpr ((hord.reserved n h).mp hn)
      reserves := fun n h => forall_job.mpr fun o ho hk hd => .inl ((hord.reserved n h).mpr ⟨o, ho, hk, hd⟩)
      source := fun h j b hj => by
        obtain ⟨o, ho, rfl⟩ := (ledger_job_iff ..).mp hj
        exact fun hb hs => .inr (hord.source h o b ho hb hs)
      active := fun c h => (hcrn.active c h).trans (exists_job (P := fun j => j.crane = c ∧ j.state ≠ .queued)).symm
      loaded := fun c h j ha => fun hj => by
        obtain ⟨o, ho, rfl⟩ := (ledger_job_iff ..).mp hj
        exact hcrn.loaded c h o ha ho
      dispatched := fun c h j ha => fun hj => by
        obtain ⟨o, ho, rfl⟩ := (ledger_job_iff ..).mp hj
        exact hcrn.dispatched c h o ha ho
      orphan := hcrn.orphan }
  · intro hs
    have hj : ∀ {h o}, s.orderOf h = some o → s.ledger.job h = some o.job := fun ho => (ledger_job_iff ..).mpr ⟨_, ho, rfl⟩
    exact {
      directory := {
        stored := hs.stored
        atBay := fun b st k => (hs.atBay b st k).trans (bayBin_iff _ b)
        onCrane := hs.onCrane
        sixteen := hs.sixteen
        pending := fun b hb => (hs.pending b hb).imp_right fun ⟨h, j, hb, hj, hk⟩ => by
          obtain ⟨o, ho, rfl⟩ := (ledger_job_iff ..).mp hj
          exact ⟨h, o, hb, ho, hk⟩
        claimed := hs.claimed }
      orders := {
        slots := fun i hi => by
          by_contra hne
          obtain ⟨o, ho⟩ := Option.ne_none_iff_exists'.mp hne
          have hlt := hs.slots (s.handleAt i) o.job (hj ((orderOf_handleAt s i).trans ho))
          exact absurd hlt (Nat.not_lt.mpr hi)
        shaped := fun h o ho => (job_shaped o).mp (hs.shaped h _ (hj ho))
        bound := fun b h => (hs.bound b h).trans (exists_job (P := fun j => j.bin = some b))
        reserved := fun n h => ⟨fun hn => exists_job.mp (hs.reserved n h hn), fun ⟨o, ho, hk, hd⟩ =>
          (hs.reserves n h _ (hj ho) hk hd).resolve_right id⟩
        source := fun h o b ho hb hl => (hs.source h _ b (hj ho) hb hl).resolve_left id }
      cranes := {
        active := fun c h => (hs.active c h).trans (exists_job (P := fun j => j.crane = c ∧ j.state ≠ .queued))
        loaded := fun c h o ha ho => hs.loaded c h _ ha (hj ho)
        dispatched := fun c h o ha ho => hs.dispatched c h _ ha (hj ho)
        orphan := hs.orphan } }

end Sys2Proof.Machine

end

/-! # The operations of the ledger (O14) -/

section

namespace Sys2Proof.Machine

/-! ## Compartments that revert (R22) -/

/-- A compartment after its claim or pending pick reverts. -/
def Comp.reverted : Comp → Comp
  | .free => .free
  | .occupied => .occupied
  | .pendingPick => .occupied
  | .claimed => .free

theorem reverted_pending (l : List Comp) : .pendingPick ∉ l.map Comp.reverted := by
  simp only [List.mem_map, not_exists, not_and]
  rintro (_ | _ | _ | _) - <;> simp [Comp.reverted]

theorem reverted_claimed (l : List Comp) : .claimed ∉ l.map Comp.reverted := by
  simp only [List.mem_map, not_exists, not_and]
  rintro (_ | _ | _ | _) - <;> simp [Comp.reverted]

/-! ## The two links between an order and the records that name it -/

theorem Ledger.SoundBut.handle_of {L : Ledger} {lost : Nat → Prop} {broken : Handle → Prop} (hL : L.SoundBut lost broken) :
    ∀ h j b, L.job h = some j → j.bin = some b → L.handle b = some h := fun h j b hj hb => (hL.bound b h).mpr ⟨j, hj, hb⟩

theorem Ledger.SoundBut.active_of {L : Ledger} {lost : Nat → Prop} {broken : Handle → Prop} (hL : L.SoundBut lost broken) :
    ∀ h j, L.job h = some j → j.state ≠ .queued → L.active j.crane = some h := fun h j hj hs => (hL.active j.crane h).mpr ⟨j, hj, rfl, hs⟩

theorem Ledger.SoundBut.stored_of {L : Ledger} {lost : Nat → Prop} {broken : Handle → Prop} (hL : L.SoundBut lost broken) :
    ∀ b n, L.cell n = .occupied b → L.place b = .stored n := fun b n => (hL.stored b n).mpr

theorem Ledger.SoundBut.atBay_of {L : Ledger} {lost : Nat → Prop} {broken : Handle → Prop} (hL : L.SoundBut lost broken) :
    ∀ b st k, L.bay st k = some b → L.place b = .atBay st k := fun b st k => (hL.atBay b st k).mpr

theorem Ledger.SoundBut.onCrane_of {L : Ledger} {lost : Nat → Prop} {broken : Handle → Prop} (hL : L.SoundBut lost broken) :
    ∀ b c, L.carried c = some b → L.place b = .onCrane c := fun b c => (hL.onCrane b c).mpr

/-- The crane of a LOADED order carries its bin. -/
theorem Ledger.SoundBut.onCrane_of_loaded {L : Ledger} {lost : Nat → Prop} {broken : Handle → Prop} (hL : L.SoundBut lost broken)
    {h : Handle} {j : Job} {b : Nat} (hj : L.job h = some j) (hs : j.state = .loaded) (hb : j.bin = some b) :
    L.active j.crane = some h ∧ L.carried j.crane = some b ∧ L.place b = .onCrane j.crane := by
  have hact := hL.active_of h j hj (by simp [hs])
  obtain ⟨-, hcar⟩ := hL.loaded _ h j hact hj hs
  have hb' := hcar.trans hb
  exact ⟨hact, hb', hL.onCrane_of _ _ hb'⟩

/-- The crane of a DISPATCHED order carries nothing. -/
theorem Ledger.SoundBut.carried_of_dispatched {L : Ledger} {lost : Nat → Prop} {broken : Handle → Prop} (hL : L.SoundBut lost broken)
    {h : Handle} {j : Job} (hj : L.job h = some j) (hs : j.state = .dispatched) :
    L.active j.crane = some h ∧ L.carried j.crane = none := by
  have hact := hL.active_of h j hj (by simp [hs])
  exact ⟨hact, hL.dispatched _ h j hact hj hs⟩

theorem orderState_cases (x : OrderState) : x = .queued ∨ x = .dispatched ∨ x = .loaded := by cases x <;> simp

/-! ## The end of an order (R55) -/

/-- What the end of the order with handle `h` does to the ledger; `lost` says that a LOADED order ends before its delivery. -/
def Ledger.endJob (L : Ledger) (h : Handle) (j : Job) (fails : Bool) : Ledger :=
  { L with
    comps := fun b =>
      if j.bin = some b ∧ j.kind = .fetch ∧ (L.place b).isAtBay = false then
        (L.comps b).map (fun c => if c = .pendingPick then .occupied else c)
      else L.comps b
    handle := fun b => if j.bin = some b then none else L.handle b
    cell := fun n =>
      if (j.kind = .stow ∨ j.kind = .move) ∧ j.dest = some (.cell n) ∧ L.cell n = .reserved h then .empty else L.cell n
    job := fun k => if k = h then none else L.job k
    active := fun c => if c = j.crane ∧ L.active c = some h then none else L.active c
    orphan := fun c =>
      if c = j.crane ∧ L.active c = some h then L.orphan c || decide (j.state = .loaded ∧ fails = true) else L.orphan c }

/-- The end of an order keeps the laws, and mends what its end mends. -/
theorem Ledger.SoundBut.endJob {L : Ledger} {lost : Nat → Prop} {broken : Handle → Prop} {h : Handle} {j : Job} {fails : Bool}
    (hL : L.SoundBut lost broken) (hj : L.job h = some j) (hf : j.state = .loaded → fails = true) :
    (L.endJob h j fails).SoundBut (fun b => lost b ∧ j.bin ≠ some b) (fun k => broken k ∧ k ≠ h) where
  stored := by have := hL.stored; simp only [Ledger.endJob]; grind
  atBay := hL.atBay
  onCrane := hL.onCrane
  sixteen := by have := hL.sixteen; simp only [Ledger.endJob]; grind
  pending := by
    have := hL.pending
    have := hL.bound
    have := hL.handle_of
    simp only [Ledger.endJob]
    grind [isAtBay_iff]
  claimed := by have := hL.claimed; simp only [Ledger.endJob]; grind
  slots := by have := hL.slots; simp only [Ledger.endJob]; grind
  shaped := by have := hL.shaped; simp only [Ledger.endJob]; grind
  bound := by have := hL.bound; have := hL.handle_of; simp only [Ledger.endJob]; grind
  reserved := by have := hL.reserved; simp only [Ledger.endJob]; grind
  reserves := by have := hL.reserves; simp only [Ledger.endJob]; grind
  source := by have := hL.source; have := hL.handle_of; simp only [Ledger.endJob]; grind
  active := by have := hL.active; have := hL.active_of; simp only [Ledger.endJob]; grind
  loaded := by have := hL.loaded; simp only [Ledger.endJob]; grind
  dispatched := by have := hL.dispatched; simp only [Ledger.endJob]; grind
  orphan := by
    have := hL.orphan; have := hL.active; have := hL.loaded; have := hL.dispatched
    simp only [Ledger.endJob]
    rcases orderState_cases j.state with hs | hs | hs <;> grind

/-! ## Creation (R51) -/

/-- An order fills a free slot: its bin names it, its destination cell is reserved, an orphan's stow is its crane's active order. -/
def Ledger.addJob (L : Ledger) (h : Handle) (j : Job) : Ledger :=
  { L with
    handle := fun b => if j.bin = some b then some h else L.handle b
    cell := fun n => if (j.kind = .stow ∨ j.kind = .move) ∧ j.dest = some (.cell n) then .reserved h else L.cell n
    job := fun k => if k = h then some j else L.job k
    active := fun c => if j.source = .crane c then some h else L.active c
    orphan := fun c => if j.source = .crane c then false else L.orphan c }

/-- A new order is QUEUED with its bin at its source, or an orphan's stow, LOADED on its crane (R44, R62). -/
def Ledger.Admits (L : Ledger) (j : Job) : Prop :=
  (j.state = .queued ∧ (∀ c, j.source ≠ .crane c) ∧
      ∀ b, j.bin = some b →
        (∀ n, j.source = .cell n → L.place b = .stored n) ∧ ∀ st k, j.source = .bay st k → L.place b = .atBay st k) ∨
    j.state = .loaded ∧ j.source = .crane j.crane ∧ L.active j.crane = none ∧ j.bin ≠ none ∧ L.carried j.crane = j.bin

theorem Ledger.SoundBut.addJob {L : Ledger} {lost : Nat → Prop} {broken : Handle → Prop} {h : Handle} {j : Job}
    (hL : L.SoundBut lost broken) (hfree : L.job h = none) (hslot : h.slot < 64) (hshape : j.Shaped)
    (hbin : ∀ b, j.bin = some b → L.handle b = none)
    (hcell : ∀ n, (j.kind = .stow ∨ j.kind = .move) → j.dest = some (.cell n) → L.cell n = .empty) (hj : L.Admits j) :
    (L.addJob h j).SoundBut lost broken where
  stored := by simp only [Ledger.addJob]; grind [hL.stored]
  atBay := hL.atBay
  onCrane := hL.onCrane
  sixteen := hL.sixteen
  pending := by have := hL.pending; simp only [Ledger.addJob]; grind
  claimed := hL.claimed
  slots := by have := hL.slots; simp only [Ledger.addJob]; grind
  shaped := by simp only [Ledger.addJob]; grind [hL.shaped]
  bound := by have := hL.bound; have := hL.handle_of; simp only [Ledger.addJob]; grind
  reserved := by have := hL.reserved; simp only [Ledger.addJob]; grind
  reserves := by have := hL.reserves; simp only [Ledger.addJob]; grind
  source := by have := hL.source; simp only [Ledger.addJob]; grind [Ledger.Admits]
  active := by have := hL.active; have := hL.active_of; simp only [Ledger.addJob]; grind [Ledger.Admits]
  loaded := by have := hL.loaded; have := hL.active; simp only [Ledger.addJob]; grind [Ledger.Admits]
  dispatched := by have := hL.dispatched; simp only [Ledger.addJob]; grind [Ledger.Admits]
  orphan := by have := hL.orphan; simp only [Ledger.addJob]; grind [Ledger.Admits]

/-! ## Re-destination (R54) -/

/-- The reservation is released, and the cell that the scan delivers, if any, is reserved and becomes the destination. -/
def Ledger.redest (L : Ledger) (h : Handle) (j : Job) (d : Option Nat) : Ledger :=
  { L with
    cell := fun n =>
      if d = some n then .reserved h else if j.dest = some (.cell n) ∧ L.cell n = .reserved h then .empty else L.cell n
    job := fun k => if k = h then some { j with dest := d.map Place.cell } else L.job k }

theorem Job.Shaped.redest {j : Job} (hj : j.Shaped) (hk : j.kind = .stow ∨ j.kind = .move) (d : Option Nat) :
    Job.Shaped { j with dest := d.map Place.cell } := by
  have hcell : ∀ x, d.map Place.cell = some x → ∃ n, x = .cell n := by
    rintro x hx
    obtain ⟨n, -, rfl⟩ := Option.map_eq_some_iff.mp hx
    exact ⟨n, rfl⟩
  unfold Job.Shaped at hj ⊢
  rcases hk with hk | hk <;> simp only [hk] at hj ⊢
  all_goals
    obtain ⟨hbin, hsource, -⟩ := hj
    exact ⟨hbin, hsource, hcell⟩

theorem Ledger.SoundBut.redest {L : Ledger} {lost : Nat → Prop} {broken : Handle → Prop} {h : Handle} {j : Job} {d : Option Nat}
    (hL : L.SoundBut lost broken) (hj : L.job h = some j) (hk : j.kind = .stow ∨ j.kind = .move)
    (hd : ∀ n, d = some n → L.cell n = .empty ∨ L.cell n = .reserved h) :
    (L.redest h j d).SoundBut lost (fun k => broken k ∧ k ≠ h) where
  stored := by simp only [Ledger.redest]; grind [hL.stored]
  atBay := hL.atBay
  onCrane := hL.onCrane
  sixteen := hL.sixteen
  pending := by have := hL.pending; simp only [Ledger.redest]; grind
  claimed := hL.claimed
  slots := by have := hL.slots; simp only [Ledger.redest]; grind
  shaped := by have := hL.shaped; have := (hL.shaped h j hj).redest hk d; simp only [Ledger.redest]; grind
  bound := by have := hL.bound; have := hL.handle_of; simp only [Ledger.redest]; grind
  reserved := by have := hL.reserved; simp only [Ledger.redest]; grind
  reserves := by
    have hdest : ∀ n, d.map Place.cell = some (.cell n) ↔ d = some n := fun n => by cases d <;> simp
    have := hL.reserves; have := hL.reserved
    simp only [Ledger.redest]
    grind
  source := by have := hL.source; simp only [Ledger.redest]; grind
  active := by have := hL.active; have := hL.active_of; simp only [Ledger.redest]; grind
  loaded := by have := hL.loaded; simp only [Ledger.redest]; grind
  dispatched := by have := hL.dispatched; simp only [Ledger.redest]; grind
  orphan := hL.orphan

/-! ## Dispatch (R74) -/

def Ledger.dispatch (L : Ledger) (h : Handle) (j : Job) : Ledger :=
  { L with
    job := fun k => if k = h then some { j with state := .dispatched } else L.job k
    active := fun c => if c = j.crane then some h else L.active c }

theorem Ledger.SoundBut.dispatch {L : Ledger} {lost : Nat → Prop} {broken : Handle → Prop} {h : Handle} {j : Job}
    (hL : L.SoundBut lost broken) (hj : L.job h = some j) (hq : j.state = .queued) (ha : L.active j.crane = none)
    (ho : L.orphan j.crane = false) : (L.dispatch h j).SoundBut lost broken where
  stored := hL.stored
  atBay := hL.atBay
  onCrane := hL.onCrane
  sixteen := hL.sixteen
  pending := by have := hL.pending; simp only [Ledger.dispatch]; grind
  claimed := hL.claimed
  slots := by have := hL.slots; simp only [Ledger.dispatch]; grind
  shaped := by have := hL.shaped; simp only [Ledger.dispatch]; grind [Job.Shaped]
  bound := by have := hL.bound; have := hL.handle_of; simp only [Ledger.dispatch]; grind
  reserved := by have := hL.reserved; simp only [Ledger.dispatch]; grind
  reserves := by have := hL.reserves; simp only [Ledger.dispatch]; grind
  source := by have := hL.source; simp only [Ledger.dispatch]; grind
  active := by have := hL.active; have := hL.active_of; simp only [Ledger.dispatch]; grind
  loaded := by have := hL.loaded; have := hL.active; simp only [Ledger.dispatch]; grind
  dispatched := by have := hL.dispatched; have := hL.orphan; have := hL.active; simp only [Ledger.dispatch]; grind
  orphan := by have := hL.orphan; simp only [Ledger.dispatch]; grind

/-! ## Loads and deliveries (R30) -/

/-- The bin of a DISPATCHED order is loaded from its cell. -/
def Ledger.loadCell (L : Ledger) (h : Handle) (j : Job) (n b : Nat) : Ledger :=
  { L with
    place := fun m => if m = b then .onCrane j.crane else L.place m
    cell := fun m => if m = n then .empty else L.cell m
    job := fun k => if k = h then some { j with state := .loaded } else L.job k
    carried := fun c => if c = j.crane then some b else L.carried c }

theorem Ledger.SoundBut.loadCell {L : Ledger} {lost : Nat → Prop} {broken : Handle → Prop} {h : Handle} {j : Job} {n b : Nat}
    (hL : L.SoundBut lost broken) (hj : L.job h = some j) (hs : j.state = .dispatched) (hb : j.bin = some b)
    (hn : L.cell n = .occupied b) : (L.loadCell h j n b).SoundBut lost broken := by
  have hplace := hL.stored_of b n hn
  obtain ⟨hact, hcar⟩ := hL.carried_of_dispatched hj hs
  exact {
    stored := by have := hL.stored; have := hL.stored_of; simp only [Ledger.loadCell]; grind
    atBay := by have := hL.atBay; have := hL.atBay_of; simp only [Ledger.loadCell]; grind
    onCrane := by have := hL.onCrane; have := hL.onCrane_of; simp only [Ledger.loadCell]; grind
    sixteen := hL.sixteen
    pending := by have := hL.pending; simp only [Ledger.loadCell]; grind
    claimed := by have := hL.claimed; simp only [Ledger.loadCell]; grind
    slots := by have := hL.slots; simp only [Ledger.loadCell]; grind
    shaped := by have := hL.shaped; simp only [Ledger.loadCell]; grind [Job.Shaped]
    bound := by have := hL.bound; have := hL.handle_of; simp only [Ledger.loadCell]; grind
    reserved := by have := hL.reserved; simp only [Ledger.loadCell]; grind
    reserves := by have := hL.reserves; simp only [Ledger.loadCell]; grind
    source := by have := hL.source; have := hL.handle_of; simp only [Ledger.loadCell]; grind
    active := by have := hL.active; have := hL.active_of; simp only [Ledger.loadCell]; grind
    loaded := by have := hL.loaded; have := hL.active; simp only [Ledger.loadCell]; grind
    dispatched := by have := hL.dispatched; have := hL.active; simp only [Ledger.loadCell]; grind
    orphan := by have := hL.orphan; simp only [Ledger.loadCell]; grind }

/-- The bin of a DISPATCHED STOW or MOVE is loaded from its bay: its claims and pending picks revert (R22). -/
def Ledger.loadBay (L : Ledger) (h : Handle) (j : Job) (st : Station) (k b : Nat) : Ledger :=
  { L with
    place := fun m => if m = b then .onCrane j.crane else L.place m
    comps := fun m => if m = b then (L.comps m).map Comp.reverted else L.comps m
    bay := fun st' k' => if st' = st ∧ k' = k then none else L.bay st' k'
    job := fun k => if k = h then some { j with state := .loaded } else L.job k
    carried := fun c => if c = j.crane then some b else L.carried c }

theorem Ledger.SoundBut.loadBay {L : Ledger} {lost : Nat → Prop} {broken : Handle → Prop} {h : Handle} {j : Job} {st : Station}
    {k b : Nat} (hL : L.SoundBut lost broken) (hj : L.job h = some j) (hs : j.state = .dispatched) (hb : j.bin = some b)
    (hk : L.bay st k = some b) : (L.loadBay h j st k b).SoundBut lost broken := by
  have hplace := hL.atBay_of b st k hk
  obtain ⟨hact, hcar⟩ := hL.carried_of_dispatched hj hs
  exact {
    stored := by have := hL.stored; have := hL.stored_of; simp only [Ledger.loadBay]; grind
    atBay := by have := hL.atBay; have := hL.atBay_of; simp only [Ledger.loadBay]; grind
    onCrane := by have := hL.onCrane; have := hL.onCrane_of; simp only [Ledger.loadBay]; grind
    sixteen := by have := hL.sixteen; simp only [Ledger.loadBay]; grind
    pending := by have := hL.pending; have := reverted_pending; simp only [Ledger.loadBay]; grind
    claimed := by have := hL.claimed; have := reverted_claimed; simp only [Ledger.loadBay]; grind
    slots := by have := hL.slots; simp only [Ledger.loadBay]; grind
    shaped := by have := hL.shaped; simp only [Ledger.loadBay]; grind [Job.Shaped]
    bound := by have := hL.bound; have := hL.handle_of; simp only [Ledger.loadBay]; grind
    reserved := by have := hL.reserved; simp only [Ledger.loadBay]; grind
    reserves := by have := hL.reserves; simp only [Ledger.loadBay]; grind
    source := by have := hL.source; have := hL.handle_of; simp only [Ledger.loadBay]; grind
    active := by have := hL.active; have := hL.active_of; simp only [Ledger.loadBay]; grind
    loaded := by have := hL.loaded; have := hL.active; simp only [Ledger.loadBay]; grind
    dispatched := by have := hL.dispatched; have := hL.active; simp only [Ledger.loadBay]; grind
    orphan := by have := hL.orphan; simp only [Ledger.loadBay]; grind }

/-- The bin of a LOADED order is delivered to its bay. -/
def Ledger.deliverBay (L : Ledger) (c : Crane) (st : Station) (k b : Nat) : Ledger :=
  { L with
    place := fun m => if m = b then .atBay st k else L.place m
    bay := fun st' k' => if st' = st ∧ k' = k then some b else L.bay st' k'
    carried := fun c' => if c' = c then none else L.carried c' }

/-- A delivery to a bay and the end of its order together keep the laws. -/
theorem Ledger.SoundBut.deliverBay {L : Ledger} {lost : Nat → Prop} {broken : Handle → Prop} {h : Handle} {j : Job} {st : Station}
    {k b : Nat} (hL : L.SoundBut lost broken) (hj : L.job h = some j) (hs : j.state = .loaded) (hb : j.bin = some b)
    (hk : L.bay st k = none) : ((L.deliverBay j.crane st k b).endJob h j false).SoundBut lost broken := by
  obtain ⟨hact, hcar, hplace⟩ := hL.onCrane_of_loaded hj hs hb
  exact {
    stored := by have := hL.stored; have := hL.stored_of; simp only [Ledger.endJob, Ledger.deliverBay]; grind
    atBay := by have := hL.atBay; have := hL.atBay_of; simp only [Ledger.endJob, Ledger.deliverBay]; grind
    onCrane := by have := hL.onCrane; have := hL.onCrane_of; simp only [Ledger.endJob, Ledger.deliverBay]; grind
    sixteen := by have := hL.sixteen; simp only [Ledger.endJob, Ledger.deliverBay]; grind
    pending := by
      have := hL.pending; have := hL.bound; have := hL.handle_of
      simp only [Ledger.endJob, Ledger.deliverBay]
      grind
    claimed := by have := hL.claimed; simp only [Ledger.endJob, Ledger.deliverBay]; grind
    slots := by have := hL.slots; simp only [Ledger.endJob, Ledger.deliverBay]; grind
    shaped := by have := hL.shaped; simp only [Ledger.endJob, Ledger.deliverBay]; grind
    bound := by have := hL.bound; have := hL.handle_of; simp only [Ledger.endJob, Ledger.deliverBay]; grind
    reserved := by have := hL.reserved; simp only [Ledger.endJob, Ledger.deliverBay]; grind
    reserves := by have := hL.reserves; simp only [Ledger.endJob, Ledger.deliverBay]; grind
    source := by have := hL.source; have := hL.handle_of; simp only [Ledger.endJob, Ledger.deliverBay]; grind
    active := by have := hL.active; have := hL.active_of; simp only [Ledger.endJob, Ledger.deliverBay]; grind
    loaded := by have := hL.loaded; have := hL.active; simp only [Ledger.endJob, Ledger.deliverBay]; grind
    dispatched := by have := hL.dispatched; simp only [Ledger.endJob, Ledger.deliverBay]; grind
    orphan := by have := hL.orphan; simp only [Ledger.endJob, Ledger.deliverBay]; grind }

/-- The bin of a LOADED order is delivered to a cell. -/
def Ledger.deliverCell (L : Ledger) (c : Crane) (n b : Nat) : Ledger :=
  { L with
    place := fun m => if m = b then .stored n else L.place m
    cell := fun m => if m = n then .occupied b else L.cell m
    carried := fun c' => if c' = c then none else L.carried c' }

/-- A delivery to the reserved cell and the end of its order together keep the laws. -/
theorem Ledger.SoundBut.deliverCell {L : Ledger} {lost : Nat → Prop} {broken : Handle → Prop} {h : Handle} {j : Job} {n b : Nat}
    (hL : L.SoundBut lost broken) (hj : L.job h = some j) (hs : j.state = .loaded) (hb : j.bin = some b)
    (hn : L.cell n = .reserved h) (hk : j.kind ≠ .fetch) :
    ((L.deliverCell j.crane n b).endJob h j false).SoundBut lost broken := by
  obtain ⟨hact, hcar, hplace⟩ := hL.onCrane_of_loaded hj hs hb
  have hown := hL.handle_of h j b hj hb
  exact {
    stored := by have := hL.stored; have := hL.stored_of; simp only [Ledger.endJob, Ledger.deliverCell]; grind
    atBay := by have := hL.atBay; have := hL.atBay_of; simp only [Ledger.endJob, Ledger.deliverCell]; grind
    onCrane := by have := hL.onCrane; have := hL.onCrane_of; simp only [Ledger.endJob, Ledger.deliverCell]; grind
    sixteen := by have := hL.sixteen; simp only [Ledger.endJob, Ledger.deliverCell]; grind
    pending := by
      have := hL.pending; have := hL.bound; have := hL.handle_of
      simp only [Ledger.endJob, Ledger.deliverCell]
      grind
    claimed := by have := hL.claimed; simp only [Ledger.endJob, Ledger.deliverCell]; grind
    slots := by have := hL.slots; simp only [Ledger.endJob, Ledger.deliverCell]; grind
    shaped := by have := hL.shaped; simp only [Ledger.endJob, Ledger.deliverCell]; grind
    bound := by have := hL.bound; have := hL.handle_of; simp only [Ledger.endJob, Ledger.deliverCell]; grind
    reserved := by have := hL.reserved; simp only [Ledger.endJob, Ledger.deliverCell]; grind
    reserves := by have := hL.reserves; simp only [Ledger.endJob, Ledger.deliverCell]; grind
    source := by have := hL.source; have := hL.handle_of; simp only [Ledger.endJob, Ledger.deliverCell]; grind
    active := by have := hL.active; have := hL.active_of; simp only [Ledger.endJob, Ledger.deliverCell]; grind
    loaded := by have := hL.loaded; have := hL.active; simp only [Ledger.endJob, Ledger.deliverCell]; grind
    dispatched := by have := hL.dispatched; simp only [Ledger.endJob, Ledger.deliverCell]; grind
    orphan := by have := hL.orphan; simp only [Ledger.endJob, Ledger.deliverCell]; grind }

end Sys2Proof.Machine

end

/-! # The directory's own operations on the ledger (O14) -/

section

namespace Sys2Proof.Machine

/-! ## A cell that enters SUSPECT, BLOCKED or another state without a bin (R26, R27, R32) -/

/-- Cell `n` enters state `x`, and the bin recorded in it becomes MISPLACED. -/
def Ledger.spoil (L : Ledger) (n : Nat) (x : CellState) : Ledger :=
  { L with
    place := fun b => if L.cell n = .occupied b then .misplaced else L.place b
    cell := fun m => if m = n then x else L.cell m }

/-- What the cell recorded is lost, and what it was reserved for has no reservation. -/
theorem Ledger.SoundBut.spoil {L : Ledger} {lost : Nat → Prop} {broken : Handle → Prop} {n : Nat} {x : CellState}
    (hL : L.SoundBut lost broken) (hx : ∀ b, x ≠ .occupied b) (hx' : ∀ h, x ≠ .reserved h) :
    (L.spoil n x).SoundBut (fun b => lost b ∨ L.cell n = .occupied b) (fun h => broken h ∨ L.cell n = .reserved h) where
  stored := by have := hL.stored; have := hL.stored_of; simp only [Ledger.spoil]; grind
  atBay := by have := hL.atBay; have := hL.atBay_of; have := hL.stored_of; simp only [Ledger.spoil]; grind
  onCrane := by have := hL.onCrane; have := hL.onCrane_of; have := hL.stored_of; simp only [Ledger.spoil]; grind
  sixteen := hL.sixteen
  pending := by have := hL.pending; have := hL.stored_of; simp only [Ledger.spoil]; grind
  claimed := by have := hL.claimed; have := hL.stored_of; simp only [Ledger.spoil]; grind
  slots := hL.slots
  shaped := hL.shaped
  bound := hL.bound
  reserved := by have := hL.reserved; simp only [Ledger.spoil]; grind
  reserves := by have := hL.reserves; simp only [Ledger.spoil]; grind
  source := by have := hL.source; simp only [Ledger.spoil]; grind
  active := hL.active
  loaded := hL.loaded
  dispatched := hL.dispatched
  orphan := hL.orphan

/-! ## ASSIGN and registration (R31, R158) -/

/-- The place that ASSIGN gives a bin. -/
def assignPlace : Option Nat → BinPlace
  | some n => .stored n
  | none => .unregistered

/-- Bin `b` leaves its place for a cell, or for none, with compartments `l`. -/
def Ledger.assign (L : Ledger) (b : Nat) (d : Option Nat) (l : List Comp) : Ledger :=
  { L with
    place := fun m => if m = b then assignPlace d else L.place m
    comps := fun m => if m = b then l else L.comps m
    cell := fun n => if d = some n then .occupied b else if L.place b = .stored n then .unverified else L.cell n
    bay := fun st k => if L.place b = .atBay st k then none else L.bay st k }

theorem assignPlace_iff (d : Option Nat) (n : Nat) : assignPlace d = .stored n ↔ d = some n := by
  cases d <;> simp [assignPlace]

theorem assignPlace_ne (d : Option Nat) : (∀ st k, assignPlace d ≠ .atBay st k) ∧ ∀ c, assignPlace d ≠ .onCrane c := by
  cases d <;> simp [assignPlace]

/-- A bin that no live order needs at its place can be given another. -/
theorem Ledger.SoundBut.assign {L : Ledger} {lost : Nat → Prop} {broken : Handle → Prop} {b : Nat} {d : Option Nat} {l : List Comp}
    (hL : L.SoundBut lost broken) (hb : L.handle b = none ∨ L.place b = .unregistered) (hc : ∀ c, L.place b ≠ .onCrane c)
    (hl : l.length = 16) (hp : .pendingPick ∉ l) (hq : .claimed ∉ l)
    (hd : ∀ n, d = some n → L.place b = .stored n ∨ (∀ m, L.cell n ≠ .occupied m) ∧ ∀ h, L.cell n ≠ .reserved h) :
    (L.assign b d l).SoundBut lost broken := by
  obtain ⟨hbay, hcrane⟩ := assignPlace_ne d
  have hcell := assignPlace_iff d
  exact {
    stored := by have := hL.stored; have := hL.stored_of; simp only [Ledger.assign]; grind
    atBay := by have := hL.atBay; have := hL.atBay_of; simp only [Ledger.assign]; grind
    onCrane := by have := hL.onCrane; have := hL.onCrane_of; simp only [Ledger.assign]; grind
    sixteen := by have := hL.sixteen; simp only [Ledger.assign]; grind
    pending := by have := hL.pending; simp only [Ledger.assign]; grind
    claimed := by have := hL.claimed; simp only [Ledger.assign]; grind
    slots := hL.slots
    shaped := hL.shaped
    bound := hL.bound
    reserved := by have := hL.reserved; simp only [Ledger.assign]; grind
    reserves := by have := hL.reserves; have := hL.stored; simp only [Ledger.assign]; grind
    source := by have := hL.source; have := hL.handle_of; simp only [Ledger.assign]; grind
    active := hL.active
    loaded := hL.loaded
    dispatched := hL.dispatched
    orphan := hL.orphan }

/-! ## Compartments (R133 to R139) -/

def Ledger.setComps (L : Ledger) (b : Nat) (l : List Comp) : Ledger :=
  { L with comps := fun m => if m = b then l else L.comps m }

theorem Ledger.SoundBut.setComps {L : Ledger} {lost : Nat → Prop} {broken : Handle → Prop} {b : Nat} {l : List Comp}
    (hL : L.SoundBut lost broken) (hl : l.length = 16)
    (hp : .pendingPick ∈ l → .pendingPick ∈ L.comps b ∨ (∃ st k, L.place b = .atBay st k) ∨
      ∃ h j, L.handle b = some h ∧ L.job h = some j ∧ j.kind = .fetch)
    (hq : .claimed ∈ l → .claimed ∈ L.comps b ∨ ∃ st k, L.place b = .atBay st k) : (L.setComps b l).SoundBut lost broken :=
  { hL with
    sixteen := by have := hL.sixteen; simp only [Ledger.setComps]; grind
    pending := by have := hL.pending; simp only [Ledger.setComps]; grind
    claimed := by have := hL.claimed; simp only [Ledger.setComps]; grind }

/-! ## A start (R206) -/

/-- A warm start: no order lives, so that what is reserved is EMPTY and a pending pick stands AT-BAY alone. -/
def Ledger.restart (L : Ledger) : Ledger :=
  { L with
    comps := fun b =>
      if (L.place b).isAtBay = true then L.comps b else (L.comps b).map (fun c => if c = .pendingPick then .occupied else c)
    handle := fun _ => none
    cell := fun n => match L.cell n with | .reserved _ => .empty | x => x
    job := fun _ => none
    active := fun _ => none
    orphan := fun c => (L.carried c).isSome }

theorem Ledger.Sound.restart {L : Ledger} (hL : L.Sound) : L.restart.Sound where
  stored := by have := hL.stored; simp only [Ledger.restart]; grind
  atBay := hL.atBay
  onCrane := hL.onCrane
  sixteen := by have := hL.sixteen; simp only [Ledger.restart]; grind
  pending := by simp only [Ledger.restart]; grind [isAtBay_iff]
  claimed := by have := hL.claimed; simp only [Ledger.restart]; grind [isAtBay_iff]
  slots := by simp [Ledger.restart]
  shaped := by simp [Ledger.restart]
  bound := by simp [Ledger.restart]
  reserved := by simp only [Ledger.restart]; grind
  reserves := by simp [Ledger.restart]
  source := by simp [Ledger.restart]
  active := by simp [Ledger.restart]
  loaded := by simp [Ledger.restart]
  dispatched := by simp [Ledger.restart]
  orphan := by simp [Ledger.restart, Option.isSome_iff_ne_none]

end Sys2Proof.Machine

end

/-! # What leaves the ledger as it is (O14) -/

section

namespace Sys2Proof.Machine

/-! ## Records that the ledger does not read -/

@[simp] theorem setCounter_ledger (s : State) (n : BitVec 32) : (s.setCounter n).ledger = s.ledger := rfl
@[simp] theorem setSeg_ledger (s : State) (n : Nat) (r : Segment) : (s.setSeg n r).ledger = s.ledger := rfl
@[simp] theorem setSched_ledger (s : State) (r : Scheduler) : (s.setSched r).ledger = s.ledger := rfl
@[simp] theorem setLoop_ledger (s : State) (z : Nat) (r : Loop) : (s.setLoop z r).ledger = s.ledger := rfl
@[simp] theorem setZone_ledger (s : State) (z : Nat) (r : Zone) : (s.setZone z r).ledger = s.ledger := rfl
@[simp] theorem setShutter_ledger (s : State) (k : Nat) (r : Shutter) : (s.setShutter k r).ledger = s.ledger := rfl
@[simp] theorem setManual_ledger (s : State) (v : Bool) : (s.setManual v).ledger = s.ledger := rfl
@[simp] theorem setGen_ledger (s : State) (k : Nat) (r : GenPhase) : (s.setGen k r).ledger = s.ledger := rfl
@[simp] theorem setLine_ledger (s : State) (n : Nat) (r : Source) : (s.setLine n r).ledger = s.ledger := rfl
@[simp] theorem setSettings_ledger (s : State) (r : Settings) : (s.setSettings r).ledger = s.ledger := rfl
@[simp] theorem setPower_ledger (s : State) (x : Power) : (s.setPower x).ledger = s.ledger := rfl
@[simp] theorem setColdStart_ledger (s : State) (x : ColdStart) : (s.setColdStart x).ledger = s.ledger := rfl
@[simp] theorem setPort_ledger (s : State) (p : Port) (q : LinkPort) : (s.setPort p q).ledger = s.ledger := by cases p <;> rfl
@[simp] theorem setSchedCrane_ledger (s : State) (x : Crane) (r : SchedCrane) : (s.setSchedCrane x r).ledger = s.ledger := by
  cases x <;> rfl

/-- A crane record that keeps the carried bin, the active order and the orphan flag. -/
@[simp] theorem setCrane_ledger_quiet (s : State) (c : Crane) (r : CraneRec) (hb : r.carried = (s.crane c).carried)
    (ha : r.active = (s.crane c).active) (ho : r.orphan = (s.crane c).orphan) : (s.setCrane c r).ledger = s.ledger := by
  have heq : ∀ {α : Type} (g : CraneRec → α), g r = g (s.crane c) → ∀ x, g ((s.setCrane c r).crane x) = g (s.crane x) := by
    intro α g hg x
    rw [setCrane_crane]
    split
    · next e => rw [e, hg]
    · rfl
  have hcarried := funext (heq CraneRec.carried hb)
  have hactive := funext (heq CraneRec.active ha)
  have horphan := funext (heq CraneRec.orphan ho)
  unfold State.ledger
  rw [hcarried, hactive, horphan]
  cases c <;> rfl

theorem foldl_ledger {α : Type} {f : State → α → State} (hf : ∀ u a, (f u a).ledger = u.ledger) (l : List α) (s : State) :
    (l.foldl f s).ledger = s.ledger := foldl_leaves State.ledger hf l s

/-! ## Notices, responses and transmitters -/

@[simp] theorem raise_ledger (s : State) (p : Port) (n : Notice) : (s.raise p n).ledger = s.ledger := setPort_ledger ..

@[simp] theorem raiseAll_ledger (s : State) (ps : List Port) (n : Notice) : (s.raiseAll ps n).ledger = s.ledger :=
  foldl_ledger (fun u p => raise_ledger u p n) ps s

@[simp] theorem respond_ledger (s : State) (p : Port) (m : Message) : (s.respond p m).ledger = s.ledger := setPort_ledger ..

@[simp] theorem pump_ledger (s : State) : s.pump.ledger = s.ledger := rfl

@[simp] theorem evalWaiting_ledger (s : State) (x : Crane) (credit : Bool) : (s.evalWaiting x credit).ledger = s.ledger := by
  unfold State.evalWaiting
  dsimp only
  split <;> simp

@[simp] theorem evalCranes_ledger (s t : State) (always a b : Bool) : (evalCranes s t always a b).ledger = t.ledger := by
  unfold evalCranes
  dsimp only
  split <;> split <;> simp

@[simp] theorem finish_ledger (s t : State) : (finish s t).ledger = t.ledger := (pump_ledger _).trans (evalCranes_ledger ..)

@[simp] theorem conclude_ledger (s : State) (p : Port) (k : Kind) (always : Bool) (r : State × Reply) :
    (conclude s p k always r).ledger = r.1.ledger := by
  unfold conclude
  dsimp only
  split <;> simp

/-! ## Permits, trips and the keepalive -/

@[simp] theorem refreshPermit_ledger (s : State) (c : Crane) : (s.refreshPermit c).ledger = s.ledger :=
  setCrane_ledger_quiet _ _ _ rfl rfl rfl

@[simp] theorem latchTrip_ledger (s : State) (c : Crane) (x : TripCause) : (s.latchTrip c x).ledger = s.ledger := by
  unfold State.latchTrip
  dsimp only
  split
  · rfl
  · simp [CraneRec.withTrip]

@[simp] theorem unreference_ledger (s : State) (c : Crane) : (s.unreference c).ledger = s.ledger := by simp [State.unreference]

@[simp] theorem tripUnreference_ledger (s : State) (c : Crane) (x : TripCause) : (s.tripUnreference c x).ledger = s.ledger := by
  simp [State.tripUnreference]

@[simp] theorem setKeepalive_ledger (s : State) (c : Crane) (w : Window) (k : KeepaliveState) :
    (s.setKeepalive c w k).ledger = s.ledger := by
  simp [State.setKeepalive]

@[simp] theorem restartKeepalive_ledger (s : State) (c : Crane) : (s.restartKeepalive c).ledger = s.ledger := by
  unfold State.restartKeepalive
  split <;> simp

@[simp] theorem setCreep_ledger (s : State) (c : Crane) (v : Bool) : (s.setCreep c v).ledger = s.ledger := by simp [State.setCreep]

@[simp] theorem clearTrip_ledger (s : State) (c : Crane) : (s.clearTrip c).ledger = s.ledger := by simp [State.clearTrip]

/-! ## Rail -/

@[simp] theorem grant_ledger (s : State) (c : Crane) (lo hi : Nat) : (s.grant c lo hi).ledger = s.ledger := by
  refine (refreshPermit_ledger _ c).trans (foldl_ledger (fun u n => ?_) _ s)
  unfold State.grantSeg
  split <;> simp

@[simp] theorem release_ledger (s : State) (c : Crane) (lo hi : Nat) : (s.release c lo hi).ledger = s.ledger :=
  (refreshPermit_ledger _ c).trans (foldl_ledger (fun u n => setSeg_ledger u n _) _ s)

@[simp] theorem sealZone_ledger (s : State) (z : Nat) : (s.sealZone z).ledger = s.ledger :=
  foldl_ledger (fun u n => setSeg_ledger u n _) _ s

@[simp] theorem unsealZone_ledger (s : State) (z : Nat) : (s.unsealZone z).ledger = s.ledger :=
  foldl_ledger (fun u n => setSeg_ledger u n _) _ s

/-! ## Zones and shutters -/

@[simp] theorem zoneTo_ledger (s : State) (z : Nat) (x : ZoneState) : (s.zoneTo z x).ledger = s.ledger := by simp [State.zoneTo]

@[simp] theorem returnToService_ledger (s : State) (z : Nat) : (s.returnToService z).ledger = s.ledger := by
  unfold State.returnToService
  dsimp only
  split <;> simp

@[simp] theorem zoneOnClosed_ledger (s : State) (z : Nat) : (s.zoneOnClosed z).ledger = s.ledger := by
  unfold State.zoneOnClosed
  split <;> simp

@[simp] theorem zoneOnOpen_ledger (s : State) (z : Nat) : (s.zoneOnOpen z).ledger = s.ledger := by
  unfold State.zoneOnOpen
  split <;> simp

@[simp] theorem zoneOnJammed_ledger (s : State) (z : Nat) : (s.zoneOnJammed z).ledger = s.ledger := by
  unfold State.zoneOnJammed
  split <;> simp

@[simp] theorem moveShutter_ledger (s : State) (k : Nat) (x : ShutterState) (cause : ShutCause) :
    (s.moveShutter k x cause).ledger = s.ledger := by
  cases x <;> simp [State.moveShutter, State.shutterTo]

@[simp] theorem enterClosing_ledger (s : State) (k : Nat) (cause : ShutCause) : (s.enterClosing k cause).ledger = s.ledger := by
  unfold State.enterClosing
  dsimp only
  split <;> simp

@[simp] theorem enterOpening_ledger (s : State) (k : Nat) (cause : ShutCause) : (s.enterOpening k cause).ledger = s.ledger := by
  unfold State.enterOpening
  dsimp only
  split <;> simp

@[simp] theorem takeDemand_ledger (s : State) (k : Nat) : (s.takeDemand k).ledger = s.ledger := by
  unfold State.takeDemand
  split <;> simp

@[simp] theorem releaseDemand_ledger (s : State) (k : Nat) : (s.releaseDemand k).ledger = s.ledger := by
  unfold State.releaseDemand State.endDemand
  split
  · rfl
  · split <;> simp

@[simp] theorem takeReset_ledger (s : State) (z : Nat) : (s.takeReset z).ledger = s.ledger := by
  simp [State.takeReset, foldl_ledger releaseDemand_ledger]

@[simp] theorem offerReset_ledger (s : State) (z : Nat) : (s.offerReset z).ledger = s.ledger := by
  unfold State.offerReset
  split <;> simp

@[simp] theorem cutCrane_ledger (s : State) (z : Nat) (c : Crane) : (s.cutCrane z c).ledger = s.ledger := by
  unfold State.cutCrane
  split <;> simp

@[simp] theorem endClearance_ledger (s : State) (z : Nat) : (s.endClearance z).ledger = s.ledger := by
  unfold State.endClearance
  dsimp only
  split
  · simp
  · split <;> simp

@[simp] theorem tripSpanning_ledger (s : State) (k : Nat) (c : Crane) : (s.tripSpanning k c).ledger = s.ledger := by
  unfold State.tripSpanning
  split <;> simp

@[simp] theorem limitEdge_ledger (s : State) (k : Nat) (i : LimitSwitch) (level : Bool) :
    (s.limitEdge k i level).ledger = s.ledger := by
  unfold State.limitEdge State.drift
  dsimp only
  split
  · split <;> simp
  · split <;> simp
  all_goals simp

@[simp] theorem sopen_ledger (s : State) (k : Nat) : (s.sopen k).1.ledger = s.ledger := by
  unfold State.sopen
  dsimp only
  split
  · split <;> simp
  · split <;> simp [refuseDetail]
  all_goals rfl

@[simp] theorem raiseEvac_ledger (s : State) (z : Nat) (c : Crane) : (s.raiseEvac z c).ledger = s.ledger := by
  unfold State.raiseEvac
  split <;> simp

@[simp] theorem obstruct_ledger (s : State) (z : Nat) : (s.obstruct z).ledger = s.ledger := by
  unfold State.obstruct
  split <;> simp

@[simp] theorem handShutter_ledger (s : State) (c : Crane) (k : Nat) : (s.handShutter c k).ledger = s.ledger := by
  unfold State.handShutter
  split
  · split
    · simp
    · split <;> simp
  · rfl

/-! ## Encoder inputs and the position sample -/

@[simp] theorem setFilters_ledger (s : State) (c : Crane) (f : Filters) : (s.setFilters c f).ledger = s.ledger :=
  setCrane_ledger_quiet _ _ _ rfl rfl rfl

@[simp] theorem phaseChange_ledger (s : State) (c : Crane) (x : PhaseStep) : (s.phaseChange c x).ledger = s.ledger := by
  cases x <;> simp [State.phaseChange]

@[simp] theorem captureHome_ledger (s : State) (c : Crane) : (s.captureHome c).ledger = s.ledger := by simp [State.captureHome]

@[simp] theorem indexEdge_ledger (s : State) (c : Crane) : (s.indexEdge c).ledger = s.ledger := by
  unfold State.indexEdge
  split
  · rfl
  · split
    · simp
    · split <;> simp

theorem settleEdge_ledger (s : State) (c : Crane) (i : EncInput) {act : State → State} (ha : ∀ u, (act u).ledger = u.ledger) :
    (s.settleEdge c i act).ledger = s.ledger := by
  unfold State.settleEdge
  dsimp only
  split <;> simp [ha]

@[simp] theorem filterWindow_ledger (s : State) (c : Crane) (w : FilterEnd) : (s.filterWindow c w).ledger = s.ledger := by
  cases w
  case index => exact settleEdge_ledger _ _ _ (fun u => indexEdge_ledger u c)
  case home => exact settleEdge_ledger _ _ _ (fun u => captureHome_ledger u c)
  all_goals simp [State.filterWindow, State.settlePhases]

@[simp] theorem samplePosition_ledger (s : State) (c : Crane) : (s.samplePosition c).ledger = s.ledger := by
  unfold State.samplePosition
  split
  · rfl
  · dsimp only
    split <;> simp

@[simp] theorem sampleSpeed_ledger (s : State) (c : Crane) : (s.sampleSpeed c).ledger = s.ledger :=
  setCrane_ledger_quiet _ _ _ rfl rfl rfl

@[simp] theorem sampleLimit_ledger (s : State) (c : Crane) : (s.sampleLimit c).ledger = s.ledger := by
  unfold State.sampleLimit
  split <;> simp

@[simp] theorem sampleMargin_ledger (s : State) (c : Crane) : (s.sampleMargin c).ledger = s.ledger :=
  setCrane_ledger_quiet _ _ _ rfl rfl rfl

@[simp] theorem sampleEnvelope_ledger (s : State) (c : Crane) : (s.sampleEnvelope c).ledger = s.ledger :=
  setCrane_ledger_quiet _ _ _ rfl rfl rfl

@[simp] theorem sampleChecks_ledger (s : State) (c : Crane) : (s.sampleChecks c).ledger = s.ledger := by
  unfold State.sampleChecks
  dsimp only
  split <;> split <;> simp

@[simp] theorem positionSample_ledger (s : State) (c : Crane) : (s.positionSample c).ledger = s.ledger := by
  simp [State.positionSample, State.handOff, foldl_ledger (fun u k => handShutter_ledger u c k)]

/-! ## Settings and the scheduler -/

@[simp] theorem putParam_ledger (s : State) (q : Param) (v : Nat) : (s.putParam q v).ledger = s.ledger := by
  obtain ⟨x, y, e⟩ := putParam_eq s q v
  rw [e]
  rfl

@[simp] theorem paramEffect_ledger (s : State) (q : Param) : (s.paramEffect q).ledger = s.ledger := by
  unfold State.paramEffect
  split <;> simp [State.dropPhase, State.trimCursor]

@[simp] theorem takeParam_ledger (s : State) (q : Param) (v : Nat) : (s.takeParam q v).ledger = s.ledger := by
  unfold State.takeParam
  split <;> simp

@[simp] theorem moveCursor_ledger (s : State) (x : Crane) (i : Nat) : (s.moveCursor x i).ledger = s.ledger := by
  unfold State.moveCursor State.advanceEpoch
  dsimp only
  split <;> simp

@[simp] theorem spendCredit_ledger (s : State) (x : Crane) : (s.spendCredit x).ledger = s.ledger := by simp [State.spendCredit]

@[simp] theorem setLag_ledger (s : State) (x : Crane) (cause : VlagCause) : (s.setLag x cause).ledger = s.ledger := by
  unfold State.setLag
  dsimp only
  split <;> simp

/-! ## The receivers and the assemblers -/

@[simp] theorem takeBreak_ledger (s : State) (p : Port) : (s.takeBreak p).ledger = s.ledger := by
  unfold State.takeBreak State.breakTrip
  split <;> simp

@[simp] theorem receive_ledger (s : State) (p : Port) (f : RxFrame) : (s.receive p f).ledger = s.ledger := by
  unfold State.receive
  dsimp only
  split <;> simp

@[simp] theorem goodMessage_ledger (s : State) (p : Port) : (s.goodMessage p).ledger = s.ledger := by
  unfold State.goodMessage
  split
  · split <;> simp
  · rfl

@[simp] theorem nakItem_ledger (s : State) (p : Port) (code : Byte) (r : Reason) : (s.nakItem p code r).ledger = s.ledger := by
  simp [State.nakItem]

end Sys2Proof.Machine

end

/-! # Operations of the model as operations of the ledger (O14) -/

section

namespace Sys2Proof.Machine

/-! ## One record -/

theorem setBin_ledger (s : State) (b : Nat) (r : Bin) :
    (s.setBin b r).ledger =
      { s.ledger with
        place := fun m => if m = b then r.place else s.ledger.place m
        comps := fun m => if m = b then r.comps else s.ledger.comps m
        handle := fun m => if m = b then r.order else s.ledger.handle m } := by
  ext1 <;> try rfl
  all_goals
    funext m
    simp only [State.ledger, State.setBin_bin]
    split <;> rfl

theorem setCell_ledger (s : State) (n : Nat) (r : Cell) :
    (s.setCell n r).ledger = { s.ledger with cell := fun m => if m = n then r.state else s.ledger.cell m } := by
  ext1 <;> try rfl
  funext m
  simp only [State.ledger, State.setCell_cell]
  split <;> rfl

theorem setBay_ledger (s : State) (st : Station) (k : Nat) (r : Bay) :
    (s.setBay st k r).ledger =
      { s.ledger with bay := fun st' k' => if st' = st ∧ k' = k then r.state.bin else s.ledger.bay st' k' } := by
  ext1 <;> try rfl
  funext st' k'
  simp only [State.ledger, setBay_bay, Prod.mk.injEq]
  split <;> rfl

theorem setCrane_ledger (s : State) (c : Crane) (r : CraneRec) :
    (s.setCrane c r).ledger =
      { s.ledger with
        carried := fun x => if x = c then r.carried else s.ledger.carried x
        active := fun x => if x = c then r.active else s.ledger.active x
        orphan := fun x => if x = c then r.orphan else s.ledger.orphan x } := by
  have hjob : (s.setCrane c r).ledger.job = s.ledger.job := by cases c <;> rfl
  ext1
  case job => exact hjob
  case carried | active | orphan =>
    funext x
    simp only [State.ledger, setCrane_crane]
    split <;> rfl
  all_goals cases c <;> rfl

theorem setSlot_orderOf (s : State) (i : Nat) (r : Slot) (h : Handle) :
    (s.setSlot i r).orderOf h = if h.slot = i then if r.gen = h.gen then r.order else none else s.orderOf h := by
  simp only [State.orderOf, State.setSlot_slot]
  split <;> rfl

theorem handle_eq_iff (s : State) (i : Nat) (h : Handle) : h = s.handleAt i ↔ h.slot = i ∧ (s.slot i).gen = h.gen := by
  cases h
  simp [State.handleAt, eq_comm]

theorem orderOf_of_slot {s : State} {h : Handle} {i : Nat} (hi : h.slot = i) (hne : h ≠ s.handleAt i) : s.orderOf h = none := by
  subst hi
  rw [State.orderOf]
  exact if_neg fun e => hne ((handle_eq_iff ..).mpr ⟨rfl, e⟩)

theorem setOrder_ledger (s : State) (i : Nat) (x : Option Order) :
    (s.setOrder i x).ledger =
      { s.ledger with job := fun h => if h = s.handleAt i then x.map Order.job else s.ledger.job h } := by
  ext1 <;> try rfl
  funext h
  simp only [State.ledger, State.setOrder, setSlot_orderOf, handle_eq_iff]
  by_cases hi : h.slot = i
  · by_cases hg : (s.slot i).gen = h.gen
    · simp [hi, hg]
    · have hnone : s.orderOf h = none := orderOf_of_slot hi (fun e => hg ((handle_eq_iff ..).mp e).2)
      simp [hi, hg, hnone]
  · simp [hi]

theorem job_handleAt {s : State} {i : Nat} {o : Order} (h : (s.slot i).order = some o) :
    s.ledger.job (s.handleAt i) = some o.job := (ledger_job_iff ..).mpr ⟨o, (orderOf_handleAt s i).trans h, rfl⟩

/-- An order whose job stands. -/
theorem setOrder_ledger_quiet {s : State} {i : Nat} {o q : Order} (h : (s.slot i).order = some o) (hq : q.job = o.job) :
    (s.setOrder i (some q)).ledger = s.ledger := by
  rw [setOrder_ledger]
  ext1 <;> try rfl
  funext k
  simp only [Option.map_some, hq]
  split
  · next e => rw [e, job_handleAt h]
  · rfl

theorem setBin_ledger_quiet (s : State) (b : Nat) (r : Bin) (hp : r.place = (s.bin b).place) (hc : r.comps = (s.bin b).comps)
    (ho : r.order = (s.bin b).order) : (s.setBin b r).ledger = s.ledger := by
  rw [setBin_ledger]
  ext1 <;> try rfl
  all_goals
    funext m
    dsimp only
    split
    · next e => simp only [e, hp, hc, ho, State.ledger]
    · rfl

theorem setCell_ledger_quiet (s : State) (n : Nat) (r : Cell) (hr : r.state = (s.cell n).state) :
    (s.setCell n r).ledger = s.ledger := by
  rw [setCell_ledger]
  ext1 <;> try rfl
  funext m
  dsimp only
  split
  · next e => simp only [e, hr, State.ledger]
  · rfl

theorem setBay_ledger_quiet (s : State) (st : Station) (k : Nat) (r : Bay) (hr : r.state.bin = (s.bay st k).state.bin) :
    (s.setBay st k r).ledger = s.ledger := by
  rw [setBay_ledger]
  ext1 <;> try rfl
  funext st' k'
  dsimp only
  split
  · next e => simp only [e.1, e.2, hr, State.ledger]
  · rfl

end Sys2Proof.Machine

end

/-! # The end, the creation and the re-destination of an order in the ledger (O14) -/

section

namespace Sys2Proof.Machine

/-! ## The end of an order -/

theorem endOrder_ledger {s : State} {i : Nat} {o : Order} (h : (s.slot i).order = some o) (f : FinalState) (x : Option EndOutcome) :
    (s.endOrder i f x).ledger = s.ledger.endJob (s.handleAt i) o.job (decide (f ≠ .complete)) := by
  ext1
  case job =>
    have hslot : ∀ k, (s.endOrder i f x).orderOf k = (s.setOrder i none).orderOf k := fun k => by
      simp only [State.orderOf, endOrder_slot h, setOrder_slot]
    have hjob : (s.endOrder i f x).ledger.job = (s.setOrder i none).ledger.job :=
      funext fun k => congrArg (Option.map Order.job) (hslot k)
    rw [hjob, setOrder_ledger]
    rfl
  case place =>
    funext b
    refine (congrArg Bin.place (endOrder_bin h f x b)).trans ?_
    change _ = (s.bin b).place
    split_ifs <;> rfl
  case comps =>
    funext b
    refine (congrArg Bin.comps (endOrder_bin h f x b)).trans ?_
    change _ = if o.bin = some b ∧ o.kind = .fetch ∧ (s.bin b).place.isAtBay = false then (s.bin b).revertPicks.comps
      else (s.bin b).comps
    by_cases hb : o.bin = some b
    · simp only [hb, if_true, true_and]
      split_ifs <;> rfl
    · simp only [hb, if_false, false_and]
  case handle =>
    funext b
    refine (congrArg Bin.order (endOrder_bin h f x b)).trans ?_
    change _ = if o.bin = some b then none else (s.bin b).order
    split_ifs <;> rfl
  case cell =>
    funext n
    refine (congrArg Cell.state (endOrder_cell h f x n)).trans ?_
    change _ = if (o.kind = .stow ∨ o.kind = .move) ∧ o.dest = some (.cell n) ∧ (s.cell n).state = .reserved (s.handleAt i) then .empty
      else (s.cell n).state
    simp only [stows_iff, destCell_iff]
    split_ifs <;> rfl
  case bay =>
    funext st k
    refine (congrArg (fun y => y.state.bin) (endOrder_bay h f x st k)).trans ?_
    change _ = (s.bay st k).state.bin
    split_ifs with hin hout
    · rw [hin.2.2.2]
      rfl
    · obtain ⟨b, hb, e⟩ := Option.map_eq_some_iff.mp hout.2.2
      rw [← e, hb]
      rfl
    · rfl
  case carried =>
    funext c
    refine (congrArg CraneRec.carried (endOrder_crane h f x c)).trans ?_
    change _ = (s.crane c).carried
    split_ifs <;> rfl
  case active =>
    funext c
    refine (congrArg CraneRec.active (endOrder_crane h f x c)).trans ?_
    change _ = if c = o.crane ∧ (s.crane c).active = some (s.handleAt i) then none else (s.crane c).active
    split_ifs <;> rfl
  case orphan =>
    funext c
    refine (congrArg CraneRec.orphan (endOrder_crane h f x c)).trans ?_
    change _ = if c = o.crane ∧ (s.crane c).active = some (s.handleAt i) then
      (s.crane c).orphan || decide (o.state = .loaded ∧ decide (f ≠ .complete) = true) else (s.crane c).orphan
    simp only [decide_eq_true_eq]
    split_ifs <;> rfl

theorem endOrder_none {s : State} {i : Nat} (h : (s.slot i).order = none) (f : FinalState) (x : Option EndOutcome) :
    s.endOrder i f x = s := by
  simp [State.endOrder, h]

/-- The end of an order keeps the ledger, and mends what its end mends; a LOADED one does not complete so. -/
theorem Ledger.SoundBut.endOrder {s : State} {lost : Nat → Prop} {broken : Handle → Prop} {i : Nat} {o : Order} {f : FinalState}
    (hs : s.ledger.SoundBut lost broken) (h : (s.slot i).order = some o) (hf : o.state = .loaded → f ≠ .complete)
    (x : Option EndOutcome) :
    (s.endOrder i f x).ledger.SoundBut (fun b => lost b ∧ o.bin ≠ some b) (fun k => broken k ∧ k ≠ s.handleAt i) := by
  rw [endOrder_ledger h]
  exact hs.endJob (job_handleAt h) (fun hl => decide_eq_true (hf hl))

theorem Ledger.Sound.of_but {L : Ledger} {lost : Nat → Prop} {broken : Handle → Prop} (h : L.SoundBut lost broken) (hl : ∀ b, ¬lost b)
    (hb : ∀ k, ¬broken k) : L.Sound := by
  have e1 : lost = fun _ => False := funext fun b => eq_false (hl b)
  have e2 : broken = fun _ => False := funext fun k => eq_false (hb k)
  subst e1 e2
  exact h

theorem endOrder_sound {s : State} {i : Nat} {f : FinalState} (hs : s.ledger.Sound)
    (hf : ∀ o, (s.slot i).order = some o → o.state = .loaded → f ≠ .complete) (x : Option EndOutcome) :
    (s.endOrder i f x).ledger.Sound := by
  cases h : (s.slot i).order with
  | none => rwa [endOrder_none h]
  | some o => exact .of_but (hs.endOrder h (hf o h) x) (fun _ h => h.1) (fun _ h => h.1)

/-! ## Creation -/

theorem fillSlot_ledger {s : State} {i : Nat} (h : (s.slot i).order = none) (o : Order) :
    (s.fillSlot i o).ledger = s.ledger.addJob (s.newHandle i) o.job := by
  ext1
  case job =>
    funext k
    have horder : (s.fillSlot i o).orderOf k =
        if k = s.newHandle i then some { o with seq := s.counter } else s.orderOf k := by
      simp only [State.orderOf, fillSlot_slot]
      by_cases hi : k.slot = i
      · subst hi
        by_cases hg : (s.newHandle k.slot).gen = k.gen
        · have hk : k = s.newHandle k.slot := by
            cases k
            simp only [State.newHandle] at hg ⊢
            rw [hg]
          rw [if_pos rfl, if_pos hg, if_pos hk]
        · have hk : k ≠ s.newHandle k.slot := fun e => hg (congrArg Handle.gen e).symm
          rw [if_pos rfl, if_neg hg, if_neg hk, h, ite_self]
      · have hk : k ≠ s.newHandle i := fun e => hi (congrArg Handle.slot e)
        rw [if_neg hi, if_neg hk]
    simp only [State.ledger, Ledger.addJob, horder]
    split_ifs <;> rfl
  case place =>
    funext b
    refine (congrArg Bin.place (fillSlot_bin s i o b)).trans ?_
    change _ = (s.bin b).place
    split_ifs <;> rfl
  case comps =>
    funext b
    refine (congrArg Bin.comps (fillSlot_bin s i o b)).trans ?_
    change _ = (s.bin b).comps
    split_ifs <;> rfl
  case handle =>
    funext b
    refine (congrArg Bin.order (fillSlot_bin s i o b)).trans ?_
    change _ = if o.bin = some b then some (s.newHandle i) else (s.bin b).order
    split_ifs <;> rfl
  case cell =>
    funext n
    refine (congrArg Cell.state (fillSlot_cell s i o n)).trans ?_
    change _ = if (o.kind = .stow ∨ o.kind = .move) ∧ o.dest = some (.cell n) then .reserved (s.newHandle i) else (s.cell n).state
    simp only [stows_iff, destCell_iff]
    split_ifs <;> rfl
  case bay =>
    funext st k
    refine (congrArg (fun y => y.state.bin) (fillSlot_bay s i o st k)).trans ?_
    change _ = (s.bay st k).state.bin
    split_ifs <;> rfl
  case carried =>
    funext c
    refine (congrArg CraneRec.carried (fillSlot_crane s i o c)).trans ?_
    change _ = (s.crane c).carried
    split_ifs <;> rfl
  case active =>
    funext c
    refine (congrArg CraneRec.active (fillSlot_crane s i o c)).trans ?_
    change _ = if o.source = .crane c then some (s.newHandle i) else (s.crane c).active
    split_ifs <;> rfl
  case orphan =>
    funext c
    refine (congrArg CraneRec.orphan (fillSlot_crane s i o c)).trans ?_
    change _ = if o.source = .crane c then false else (s.crane c).orphan
    split_ifs <;> rfl

/-- A creation keeps the ledger where the order has the shape of its kind and its bin, cell and place are as R44 and R49 ask. -/
theorem create_sound {s t : State} {o : Order} {h : Handle} (hs : s.ledger.Sound) (e : s.create o = some (t, h)) (hshape : o.Shaped)
    (hbin : ∀ b, o.bin = some b → (s.bin b).order = none)
    (hcell : ∀ n, (o.kind = .stow ∨ o.kind = .move) → o.dest = some (.cell n) → (s.cell n).state = .empty)
    (hj : s.ledger.Admits o.job) : t.ledger.Sound := by
  obtain ⟨i, hi, rfl, rfl⟩ := create_some e
  obtain ⟨hlt, hfree, -⟩ := freeSlot_some hi
  rw [fillSlot_ledger hfree]
  have hnone : s.ledger.job (s.newHandle i) = none := by
    have : s.orderOf (s.newHandle i) = none := by simp [State.orderOf, State.newHandle, hfree]
    simp [State.ledger, this]
  exact hs.addJob hnone hlt ((job_shaped o).mpr hshape) hbin hcell hj

/-! ## Re-destination -/

theorem releaseDest_ledger (s : State) (o : Order) (h : Handle) :
    (s.releaseDest o h).ledger =
      { s.ledger with
        cell := fun n => if o.dest = some (.cell n) ∧ s.ledger.cell n = .reserved h then .empty else s.ledger.cell n } := by
  unfold State.releaseDest
  split
  · next n hn =>
    rw [destCell_iff] at hn
    unfold State.releaseCell
    split
    · next hc =>
      rw [State.cellTo, setCell_ledger]
      ext1 <;> try rfl
      funext m
      by_cases hm : m = n
      · subst hm
        have hc' : s.ledger.cell m = .reserved h := hc
        simp [hn, hc', Cell.toState]
      · have hm' : ¬n = m := fun e => hm e.symm
        simp [hn, hm, hm']
    · next hc =>
      ext1 <;> try rfl
      funext m
      refine (if_neg ?_).symm
      rintro ⟨hd, hr⟩
      rw [hn] at hd
      cases hd
      exact hc hr
  · next hn =>
    ext1 <;> try rfl
    funext m
    refine (if_neg ?_).symm
    rintro ⟨hd, -⟩
    rw [(destCell_iff o m).mpr hd] at hn
    cases hn

theorem releaseDest_slot (s : State) (o : Order) (h : Handle) (i : Nat) : (s.releaseDest o h).slot i = s.slot i := by
  unfold State.releaseDest
  split
  · unfold State.releaseCell
    split <;> rfl
  · rfl

theorem homeScan_empty {s : State} {c : Crane} {n : Nat} (h : s.homeScan c = some n) : (s.cell n).state = .empty := by
  have hleast := homeScan_leastBy s c
  rw [h] at hleast
  exact ((homeAccepts_iff ..).mp hleast.1.2).1

theorem destScan_empty {s : State} {st : Station} {n : Nat} (h : s.destScan st = some n) : (s.cell n).state = .empty := by
  have hleast := stationScan_leastBy st (s.destAccepts st)
  rw [← State.destScan, h] at hleast
  exact ((destAccepts_iff ..).mp hleast.1.2).1

/-- The scans of a re-destination deliver EMPTY cells. -/
theorem redestScan_empty {s : State} {o : Order} {n : Nat} (h : s.redestScan o = some n) : (s.cell n).state = .empty := by
  unfold State.redestScan at h
  split at h
  · exact homeScan_empty h
  · exact destScan_empty h

/-- A re-destination in the ledger: the cell that the scan delivers, if any, was EMPTY or is released by it. -/
theorem redestine_ledger {s : State} {i : Nat} {o : Order} (h : (s.slot i).order = some o) :
    ∃ d, (s.redestine i).ledger = s.ledger.redest (s.handleAt i) o.job d ∧
      ∀ n, d = some n → s.ledger.cell n = .empty ∨ s.ledger.cell n = .reserved (s.handleAt i) := by
  have hhandle : (s.releaseDest o (s.handleAt i)).handleAt i = s.handleAt i := by
    rw [State.handleAt, releaseDest_slot]
    rfl
  simp only [State.redestine, h]
  split
  · next n hn =>
    refine ⟨some n, ?_, ?_⟩
    · have hhandle' : ((s.releaseDest o (s.handleAt i)).reserveCell n (s.handleAt i)).handleAt i = s.handleAt i := hhandle
      rw [setOrder_ledger, hhandle', State.reserveCell, State.cellTo, setCell_ledger, releaseDest_ledger]
      ext1 <;> try rfl
      funext m
      by_cases hm : m = n
      · simp [hm, Ledger.redest, Cell.toState]
      · exact (if_neg hm).trans (if_neg fun e => hm (Option.some.inj e).symm).symm
    · rintro m ⟨⟩
      have hempty : (s.releaseDest o (s.handleAt i)).ledger.cell n = .empty := redestScan_empty hn
      rw [releaseDest_ledger] at hempty
      dsimp only at hempty
      split at hempty
      · next hc => exact .inr hc.2
      · exact .inl hempty
  · refine ⟨none, ?_, fun n hn => by cases hn⟩
    rw [setOrder_ledger, hhandle, releaseDest_ledger]
    rfl

theorem Ledger.SoundBut.redestine {s : State} {lost : Nat → Prop} {broken : Handle → Prop} {i : Nat} {o : Order}
    (hs : s.ledger.SoundBut lost broken) (h : (s.slot i).order = some o) (hk : o.kind = .stow ∨ o.kind = .move) :
    (s.redestine i).ledger.SoundBut lost (fun k => broken k ∧ k ≠ s.handleAt i) := by
  obtain ⟨d, heq, hd⟩ := redestine_ledger h
  rw [heq]
  exact hs.redest (job_handleAt h) hk hd

theorem redestine_sound {s : State} {i : Nat} {o : Order} (hs : s.ledger.Sound) (h : (s.slot i).order = some o)
    (hk : o.kind = .stow ∨ o.kind = .move) : (s.redestine i).ledger.Sound :=
  .of_but (hs.redestine h hk) (fun _ h => h) (fun _ h => h.1)

end Sys2Proof.Machine

end

/-! # The service requests and the ledger (O14) -/

section

namespace Sys2Proof.Machine

/-! ## Cells (R26, R27, R32, R33) -/

theorem cellTo_ledger {s : State} {n : Nat} (h : ∀ b, (s.cell n).state ≠ .occupied b) (x : CellState) :
    (s.cellTo n x).ledger = s.ledger.spoil n x := by
  rw [State.cellTo, setCell_ledger]
  ext1 <;> try rfl
  funext b
  exact (if_neg (h b)).symm

theorem misplaced_ledger {s : State} {n b : Nat} (h : (s.cell n).state = .occupied b) (c : Cell) :
    ((s.setBin b { s.bin b with place := .misplaced }).setCell n c).ledger = s.ledger.spoil n c.state := by
  rw [setCell_ledger, setBin_ledger]
  ext1 <;> try rfl
  case place =>
    funext m
    have hcell : s.ledger.cell n = .occupied b := h
    simp only [Ledger.spoil, hcell, CellState.occupied.injEq]
    split_ifs with h1 h2 h2
    · rfl
    · exact absurd h1.symm h2
    · exact absurd h2.symm h1
    · rfl
  case comps | handle =>
    funext m
    dsimp only [Ledger.spoil]
    split
    · next e => rw [e]; rfl
    · rfl

theorem spoil_same {L : Ledger} {n : Nat} {x : CellState} (h : L.cell n = x) (hx : ∀ b, x ≠ .occupied b) : L.spoil n x = L := by
  ext1 <;> try rfl
  case place =>
    funext b
    exact if_neg (h ▸ hx b)
  case cell =>
    funext m
    dsimp only [Ledger.spoil]
    split
    · next e => rw [e, h]
    · rfl

theorem enterSuspect_ledger (s : State) (n : Nat) : (s.enterSuspect n).ledger = s.ledger.spoil n .suspect := by
  by_cases hs : (s.cell n).state = .suspect
  · rw [State.enterSuspect, if_pos hs, spoil_same (show s.ledger.cell n = _ from hs) (fun _ => CellState.noConfusion)]
  · cases hc : (s.cell n).state with
    | occupied b => rw [enterSuspect_occupied hc, raise_ledger, misplaced_ledger hc]
    | _ =>
      have hfree : ∀ b, (s.cell n).state ≠ .occupied b := by simp [hc]
      rw [enterSuspect_free hs hfree, raise_ledger]
      exact cellTo_ledger hfree .suspect

theorem enterBlocked_ledger (s : State) (n : Nat) : (s.enterBlocked n).ledger = s.ledger.spoil n .blocked := by
  by_cases hs : (s.cell n).state = .blocked
  · rw [State.enterBlocked, if_pos hs, spoil_same (show s.ledger.cell n = _ from hs) (fun _ => CellState.noConfusion)]
  · cases hc : (s.cell n).state with
    | occupied b => rw [enterBlocked_occupied hc, misplaced_ledger hc]
    | _ =>
      have hfree : ∀ b, (s.cell n).state ≠ .occupied b := by simp [hc]
      rw [enterBlocked_free hs hfree]
      exact cellTo_ledger hfree .blocked

/-- A cell that neither records a bin nor is reserved can take any state that does neither. -/
theorem Ledger.Sound.spoil {L : Ledger} {n : Nat} {x : CellState} (hL : L.Sound) (hb : ∀ b, L.cell n ≠ .occupied b)
    (hr : ∀ h, L.cell n ≠ .reserved h) (hx : ∀ b, x ≠ .occupied b) (hx' : ∀ h, x ≠ .reserved h) : (L.spoil n x).Sound :=
  .of_but (Ledger.SoundBut.spoil hL hx hx') (fun b h => h.elim id (hb b)) (fun k h => h.elim id (hr k))

theorem ownToUnverified_sound {s : State} {x : CellState} (hx : ∀ b, x ≠ .occupied b) (hx' : ∀ h, x ≠ .reserved h) (n : Nat)
    (hs : s.ledger.Sound) : (ownToUnverified x n s).1.ledger.Sound := by
  unfold ownToUnverified
  split
  · exact hs
  · split
    · next hc =>
      have hfree : ∀ b, (s.cell n).state ≠ .occupied b := fun b => hc ▸ hx b
      dsimp only
      rw [cellTo_ledger hfree]
      have hopen : ∀ h, (s.cell n).state ≠ .reserved h := fun h => hc ▸ hx' h
      exact hs.spoil hfree hopen (fun _ => CellState.noConfusion) (fun _ => CellState.noConfusion)
    · exact hs

theorem ownBlock_sound {s : State} (n : Nat) (hs : s.ledger.Sound) : (ownBlock n s).1.ledger.Sound := by
  unfold ownBlock
  split
  · exact hs
  · split
    · next hc =>
      dsimp only
      rw [enterBlocked_ledger]
      refine hs.spoil (fun b hb => ?_) (fun h hr => ?_) (fun _ => CellState.noConfusion) (fun _ => CellState.noConfusion)
      · have hb' : (s.cell n).state = .occupied b := hb
        simp [hb', CellState.blockable] at hc
      · have hr' : (s.cell n).state = .reserved h := hr
        simp [hr', CellState.blockable] at hc
    · exact hs

/-! ## Bins (R31, R34, R35) -/

theorem reverted_comps (b : Bin) : b.revertPicks.revertClaims.comps = b.comps.map Comp.reverted := by
  rw [revert_comps]
  exact List.map_congr_left fun c _ => by cases c <;> rfl

theorem reverted_comps' (b : Bin) : b.revertClaims.revertPicks.comps = b.comps.map Comp.reverted := by
  simp only [Bin.revertPicks, Bin.revertClaims, List.map_map]
  exact List.map_congr_left fun c _ => by cases c <;> rfl

theorem assign_ledger (s : State) (b : Nat) (d : Option Nat) :
    (s.assign b d).ledger = s.ledger.assign b d ((s.bin b).comps.map Comp.reverted) := by
  have hframe := assign_frame s b d
  ext1
  case place =>
    funext m
    refine (congrArg Bin.place (assign_bin s b d m)).trans ?_
    change _ = if m = b then assignPlace d else (s.bin m).place
    split
    · cases d <;> rfl
    · rfl
  case comps =>
    funext m
    refine (congrArg Bin.comps (assign_bin s b d m)).trans ?_
    change _ = if m = b then (s.bin b).comps.map Comp.reverted else (s.bin m).comps
    split
    · exact reverted_comps _
    · rfl
  case handle =>
    funext m
    refine (congrArg Bin.order (assign_bin s b d m)).trans ?_
    split
    · next e => rw [e]; rfl
    · rfl
  case cell =>
    funext n
    refine (congrArg Cell.state (assign_cell s b d n)).trans ?_
    change _ = if d = some n then .occupied b else if (s.bin b).place = .stored n then .unverified else (s.cell n).state
    split_ifs <;> rfl
  case bay =>
    funext st k
    refine (congrArg (fun y => y.state.bin) (assign_bay s b d st k)).trans ?_
    change _ = if (s.bin b).place = .atBay st k then none else (s.bay st k).state.bin
    split <;> rfl
  all_goals
    rw [hframe]
    rfl

theorem ownAssign_sound {s : State} (a : Nat × Option Nat) (hs : s.ledger.Sound) : (ownAssign a s).1.ledger.Sound := by
  unfold ownAssign
  split
  · exact hs
  · split
    · exact hs
    · next hbusy =>
      split
      · exact hs
      · next hcell =>
        dsimp only
        rw [assign_ledger]
        simp only [Bool.or_eq_true, not_or, Option.isSome_iff_ne_none, ne_eq, not_not, isOnCrane_iff, not_exists] at hbusy
        refine Ledger.SoundBut.assign hs (.inl hbusy.1) hbusy.2 ?_ (reverted_pending _) (reverted_claimed _) fun n hn => ?_
        · rw [List.length_map]
          exact hs.sixteen a.1
        · have hok : s.assignCellOk a.1 n = true := by simpa [hn] using hcell
          rw [assignCellOk_iff] at hok
          rcases hok with h | h | h | h
          · exact .inr (by simp [State.ledger, h])
          · exact .inr (by simp [State.ledger, h])
          · exact .inr (by simp [State.ledger, h])
          · exact .inl h

theorem ownQuar_sound {s : State} (v : Bool) (b : Nat) (hs : s.ledger.Sound) : (ownQuar v b s).1.ledger.Sound := by
  unfold ownQuar
  split
  · exact hs
  · dsimp only
    have hquiet := setBin_ledger_quiet s b { s.bin b with quarantine := v } rfl rfl rfl
    rwa [hquiet]

/-- A bin with other compartments. -/
theorem setComps_ledger (s : State) (b : Nat) (l : List Comp) :
    (s.setBin b { s.bin b with comps := l }).ledger = s.ledger.setComps b l := by
  rw [setBin_ledger]
  ext1 <;> try rfl
  case place | handle =>
    funext m
    dsimp only [Ledger.setComps]
    split
    · next e => rw [e]; rfl
    · rfl

theorem setcmpStates_sound {l : List Nat} {cs : List Comp} (h : setcmpStates l = some cs) :
    cs.length = 16 ∧ .pendingPick ∉ cs ∧ .claimed ∉ cs := by
  by_cases hgood : l.length = 16 ∧ ∀ x ∈ l, x < 2
  · obtain ⟨hlen, hlt⟩ := hgood
    rw [setcmpStates_of_sound hlen hlt] at h
    cases h
    refine ⟨(List.length_map _).trans hlen, ?_, ?_⟩
    all_goals
      intro hmem
      obtain ⟨x, -, hx⟩ := List.mem_map.mp hmem
      unfold givenComp at hx
      split at hx <;> cases hx
  · rw [setcmpStates_of_unsound (by grind)] at h
    cases h

theorem ownSetcmp_sound {s : State} (a : Nat × List Nat) (hs : s.ledger.Sound) : (ownSetcmp a s).1.ledger.Sound := by
  unfold ownSetcmp
  split
  · exact hs
  · split
    · exact hs
    · next cs hcs =>
      split
      · exact hs
      · obtain ⟨hlen, hpick, hclaim⟩ := setcmpStates_sound hcs
        dsimp only
        rw [setComps_ledger]
        exact Ledger.SoundBut.setComps hs hlen (fun h => absurd h hpick) (fun h => absurd h hclaim)

/-! ## Orders (R53, R59, R60) -/

theorem creationRefusal_bin {s : State} {bin : Option Nat} {k : OrderKind} (h : s.creationRefusal bin k = none) :
    ∀ b, bin = some b → (s.bin b).order = none := by
  rintro b rfl
  by_contra hb
  simp [State.creationRefusal, Option.isSome_iff_ne_none, hb] at h

theorem moveOrder_some {s : State} {b n a : Nat} {o : Order} (h : s.moveOrder b n a = some o) :
    o.Shaped ∧ o.bin = some b ∧ o.dest = some (.cell n) ∧ s.ledger.Admits o.job := by
  unfold State.moveOrder at h
  split at h
  · next m hm =>
    cases h
    exact ⟨⟨nofun, .inl ⟨m, rfl⟩, fun d hd => ⟨n, by cases hd; rfl⟩⟩, rfl, rfl,
      .inl ⟨rfl, nofun, by rintro _ ⟨⟩; exact ⟨by rintro _ ⟨⟩; exact hm, nofun⟩⟩⟩
  · next st bay hb =>
    cases h
    exact ⟨⟨nofun, .inr ⟨st, bay, rfl⟩, fun d hd => ⟨n, by cases hd; rfl⟩⟩, rfl, rfl,
      .inl ⟨rfl, nofun, by rintro _ ⟨⟩; exact ⟨nofun, by rintro _ _ ⟨⟩; exact hb⟩⟩⟩
  all_goals cases h

theorem ownMove_sound {s : State} (a : Nat × Nat × Nat) (hs : s.ledger.Sound) : (ownMove a s).1.ledger.Sound := by
  unfold ownMove
  split
  · exact hs
  · split
    · exact hs
    · split
      · exact hs
      · next o ho =>
        obtain ⟨hshape, hbin, hdest, hadmits⟩ := moveOrder_some ho
        split
        · exact hs
        · next hcell =>
          split
          · exact hs
          · next hfree =>
            split
            · exact hs
            · next t h hcreate =>
              refine create_sound hs hcreate hshape (fun b hb => ?_) (fun n _ hn => ?_) hadmits
              · exact creationRefusal_bin hfree b (hbin.symm.trans hb)
              · rw [hdest] at hn
                cases hn
                exact not_not.mp hcell

theorem ownServiceCancel_sound {s : State} (a : Nat × Nat) (hs : s.ledger.Sound) : (ownServiceCancel a s).1.ledger.Sound := by
  unfold ownServiceCancel
  split
  · exact hs
  · dsimp only
    split
    · exact hs
    · next o ho =>
      refine endOrder_sound hs (fun q hq hl => ?_) _
      rw [orderOf_slot ho] at hq
      cases hq
      simp [hl, OrderState.serviceFinal]

theorem ownCancel_sound {s : State} (a : Nat × Nat) (hs : s.ledger.Sound) : (ownCancel a s).1.ledger.Sound := by
  unfold ownCancel
  split
  · exact hs
  · dsimp only
    split
    · exact hs
    · split
      · exact endOrder_sound (f := .cancelled) hs (fun _ _ _ => FinalState.noConfusion) none
      · exact hs

end Sys2Proof.Machine

end

/-! # The desk, the bays and the ledger (O14) -/

section

namespace Sys2Proof.Machine

/-! ## Auto-stow (R144 to R146) -/

theorem occupiedBin_iff (x : BayState) (b : Nat) : x.occupiedBin = some b ↔ x = .occupied b := by
  cases x <;> simp [BayState.occupiedBin]

@[simp] theorem setKeep_ledger (s : State) (st : Station) (k : Nat) (v : Bool) : (s.setKeep st k v).ledger = s.ledger :=
  setBay_ledger_quiet _ _ _ _ rfl

@[simp] theorem setStowWanted_ledger (s : State) (st : Station) (k : Nat) (v : Bool) : (s.setStowWanted st k v).ledger = s.ledger :=
  setBay_ledger_quiet _ _ _ _ rfl

/-- The bin of an OCCUPIED bay is AT-BAY there. -/
theorem Ledger.Sound.place_of_occupied {s : State} (hs : s.ledger.Sound) {st : Station} {k b : Nat}
    (h : (s.bay st k).state = .occupied b) : (s.bin b).place = .atBay st k :=
  hs.atBay_of b st k ((bayBin_iff ..).mpr (.inl h))

theorem stowOrder_admits {s : State} {st : Station} {k b : Nat} (n : Nat) (h : (s.bin b).place = .atBay st k) :
    (stowOrder st k b n).Shaped ∧ s.ledger.Admits (stowOrder st k b n).job :=
  ⟨⟨nofun, .inl ⟨st, k, rfl⟩, fun d hd => ⟨n, by cases hd; rfl⟩⟩,
    .inl ⟨rfl, nofun, by rintro _ ⟨⟩; exact ⟨nofun, by rintro _ _ ⟨⟩; exact h⟩⟩⟩

theorem attemptStow_sound {s : State} {st : Station} {k b : Nat} (hs : s.ledger.Sound) (h : (s.bay st k).state = .occupied b) :
    (s.attemptStow st k b).1.ledger.Sound := by
  unfold State.attemptStow
  dsimp only
  split
  · rwa [setStowWanted_ledger]
  · next hfree =>
    split
    · rwa [setStowWanted_ledger]
    · next n hn =>
      split
      · rwa [setStowWanted_ledger]
      · next t hd hcreate =>
        obtain ⟨hshape, hadmits⟩ := stowOrder_admits n (hs.place_of_occupied h)
        refine create_sound hs hcreate hshape (creationRefusal_bin hfree) (fun m _ hm => ?_) hadmits
        cases hm
        exact destScan_empty hn

theorem autoStow_sound {s : State} (st : Station) (k : Nat) (hs : s.ledger.Sound) : (s.autoStow st k).1.ledger.Sound := by
  unfold State.autoStow
  split
  · exact hs
  · next b hb =>
    refine attemptStow_sound hs ?_
    unfold State.stowCandidate at hb
    split at hb
    · cases hb
    · next m hm =>
      split at hb
      · cases hb
      · cases hb
        exact (occupiedBin_iff ..).mp hm

theorem ownRelbay_sound {s : State} (a : Nat × Nat) (hs : s.ledger.Sound) : (ownRelbay a s).1.ledger.Sound := by
  unfold ownRelbay
  split
  · exact hs
  · next st _ =>
    split
    · exact autoStow_sound st a.2 (by rwa [setKeep_ledger])
    · exact hs

/-! ## Compartment requests (R133 to R137) -/

theorem evalDesk_sound {s : State} (b : Nat) (hs : s.ledger.Sound) : (s.evalDesk b).1.ledger.Sound := by
  unfold State.evalDesk
  split
  · exact autoStow_sound _ _ hs
  all_goals exact hs

@[simp] theorem keepUnlessFull_ledger (b : Nat) (s : State) : (keepUnlessFull b s).ledger = s.ledger := by
  unfold keepUnlessFull
  split
  · split
    · rw [setKeep_ledger]
    · rfl
  all_goals rfl

/-- A compartment that becomes FREE or OCCUPIED. -/
theorem setComp_sound {s : State} {x : Comp} (b i : Nat) (hs : s.ledger.Sound) (hp : x ≠ .pendingPick) (hc : x ≠ .claimed) :
    (s.setBin b ((s.bin b).setComp i x)).ledger.Sound := by
  have hset := setComps_ledger s b ((s.bin b).comps.set i x)
  rw [Bin.setComp, hset]
  refine Ledger.SoundBut.setComps hs ?_ (fun h => .inl ?_) (fun h => .inl ?_)
  · rw [List.length_set]
    exact hs.sixteen b
  · exact (List.mem_or_eq_of_mem_set h).resolve_right hp.symm
  · exact (List.mem_or_eq_of_mem_set h).resolve_right hc.symm

theorem deskRequest_sound {s : State} {target : Comp} {after : Nat → State → State} (atBay : Bool) (source : Comp) (a : Nat × Nat)
    (hs : s.ledger.Sound) (hp : target ≠ .pendingPick) (hc : target ≠ .claimed) (ha : ∀ b u, (after b u).ledger = u.ledger) :
    (deskRequest atBay source target after a s).1.ledger.Sound := by
  unfold deskRequest
  split
  · exact hs
  · split
    · exact hs
    · split
      · exact hs
      · refine evalDesk_sound a.1 ?_
        rw [ha]
        exact setComp_sound a.1 a.2 hs hp hc

/-! ## FETCH (R128 to R131) -/

/-- The compartments after some are set: as many, and each of the old ones or the state given. -/
theorem setComps_comps (is : List Nat) (x : Comp) (b : Bin) :
    (b.setComps is x).comps.length = b.comps.length ∧ ∀ y ∈ (b.setComps is x).comps, y ∈ b.comps ∨ y = x := by
  unfold Bin.setComps
  induction is generalizing b with
  | nil => exact ⟨rfl, fun y hy => .inl hy⟩
  | cons i rest ih =>
    obtain ⟨hlen, hmem⟩ := ih (b.setComp i x)
    refine ⟨hlen.trans (List.length_set ..), fun y hy => ?_⟩
    exact (hmem y hy).elim List.mem_or_eq_of_mem_set .inr

/-- Picks are marked in a bin AT-BAY or of a live FETCH. -/
theorem markPicks_sound {s : State} {b : Nat} (picks : List Nat) (hs : s.ledger.Sound)
    (hb : (∃ st k, (s.bin b).place = .atBay st k) ∨ ∃ h j, s.ledger.handle b = some h ∧ s.ledger.job h = some j ∧ j.kind = .fetch) :
    (s.markPicks b picks).ledger.Sound := by
  obtain ⟨comps, hcomps, -⟩ := setComps_eq (s.bin b) picks .pendingPick
  obtain ⟨hlen, hmem⟩ := setComps_comps picks .pendingPick (s.bin b)
  rw [State.markPicks, hcomps]
  rw [hcomps] at hlen hmem
  rw [setComps_ledger]
  refine Ledger.SoundBut.setComps hs (hlen.trans (hs.sixteen b)) (fun _ => .inr hb) (fun h => .inl ?_)
  exact (hmem _ h).resolve_right Comp.noConfusion

theorem takeAtBay_sound {s : State} {b : Nat} {st : Station} {k : Nat} (picks : List Nat) (hs : s.ledger.Sound)
    (hb : (s.bin b).place = .atBay st k) : (s.takeAtBay b st k picks).ledger.Sound := by
  have hmark := markPicks_sound picks hs (.inl ⟨st, k, hb⟩)
  unfold State.takeAtBay
  dsimp only
  split
  · rwa [setKeep_ledger]
  · exact hmark

theorem endOrder_place (s : State) (i : Nat) (f : FinalState) (x : Option EndOutcome) (b : Nat) :
    ((s.endOrder i f x).bin b).place = (s.bin b).place := by
  cases h : (s.slot i).order with
  | none => rw [endOrder_none h]
  | some o => exact congrArg (fun L => L.place b) (endOrder_ledger h f x)

theorem fetchAtBay_sound {s : State} {b : Nat} {st : Station} {k : Nat} (picks : List Nat) (hs : s.ledger.Sound)
    (hb : (s.bin b).place = .atBay st k) : (s.fetchAtBay b st k picks).1.ledger.Sound := by
  unfold State.fetchAtBay
  dsimp only
  split
  · exact takeAtBay_sound picks hs hb
  · split
    · exact hs
    · next i _ =>
      refine takeAtBay_sound picks ?_ ((endOrder_place ..).trans hb)
      exact endOrder_sound hs (fun _ _ _ => FinalState.noConfusion) none

/-- The order of a FETCH is of a bin STORED in the cell it is fetched from. -/
theorem fetchOrder_admits {s : State} {b n : Nat} (h : (s.bin b).place = .stored n) (purpose : Purpose) (st : Station) (issuer : Issuer)
    (a : Nat) (loan : Option (BitVec 32)) (level : Nat) :
    (newOrder .fetch purpose (some b) (.cell n) (some (.station st)) (craneOf st) issuer a loan level).Shaped ∧
      s.ledger.Admits (newOrder .fetch purpose (some b) (.cell n) (some (.station st)) (craneOf st) issuer a loan level).job :=
  ⟨⟨nofun, ⟨n, rfl⟩, st, rfl, rfl⟩, .inl ⟨rfl, nofun, by rintro _ ⟨⟩; exact ⟨by rintro _ ⟨⟩; exact h, nofun⟩⟩⟩

/-- The creation of a FETCH keeps the ledger, and its bin is then of a live FETCH. -/
theorem createFetch_sound {s t : State} {h : Handle} {o : Order} {b : Nat} (hs : s.ledger.Sound) (e : s.create o = some (t, h))
    (hshape : o.Shaped) (hadmits : s.ledger.Admits o.job) (hk : o.kind = .fetch) (hb : o.bin = some b) (hfree : (s.bin b).order = none) :
    t.ledger.Sound ∧ ∃ h j, t.ledger.handle b = some h ∧ t.ledger.job h = some j ∧ j.kind = .fetch := by
  refine ⟨create_sound hs e hshape (fun m hm => ?_) (fun _ hstow => ?_) hadmits, ?_⟩
  · rw [hb] at hm
    cases hm
    exact hfree
  · rw [hk] at hstow
    exact absurd hstow (by decide)
  · obtain ⟨i, hi, rfl, rfl⟩ := create_some e
    obtain ⟨-, hnone, -⟩ := freeSlot_some hi
    rw [fillSlot_ledger hnone]
    exact ⟨s.newHandle i, o.job, if_pos hb, if_pos rfl, hk⟩

theorem fetchStored_sound {s : State} {st : Station} {b : Nat} (picks : List Nat) (loan : BitVec 32) (hs : s.ledger.Sound) :
    (s.fetchStored b st picks loan).1.ledger.Sound := by
  unfold State.fetchStored
  split
  · exact hs
  · next hfree =>
    split
    · next n hn =>
      split
      · exact hs
      · split
        · exact hs
        · split
          · exact hs
          · next t h hcreate =>
            obtain ⟨hshape, hadmits⟩ := fetchOrder_admits hn .loan st .C (effectiveAuthority 0 .C) (some loan) (cellLevel n)
            obtain ⟨ht, hlive⟩ := createFetch_sound hs hcreate hshape hadmits rfl rfl (by simpa using hfree)
            exact markPicks_sound picks ht (.inr hlive)
    all_goals exact hs

theorem ownFetch_sound {s : State} (a : FetchArgs) (hs : s.ledger.Sound) : (ownFetch a s).1.ledger.Sound := by
  unfold ownFetch
  split
  · exact hs
  · split
    · unfold State.fetch
      split
      · exact hs
      · split
        · exact hs
        · split
          · exact hs
          · split
            · next st' k hb =>
              split
              · next e => exact fetchAtBay_sound a.picks hs (e ▸ hb)
              · exact hs
            all_goals exact fetchStored_sound a.picks a.loan hs
    · exact hs

/-! ## SLOT (R139 to R141) -/

theorem slotBay_occupied {s : State} {st : Station} {k b i : Nat} (h : s.slotBay st k = some (b, i)) :
    (s.bay st k).state = .occupied b := by
  unfold State.slotBay at h
  split at h
  · cases h
  · next m hm =>
    split at h
    · cases h
    · obtain ⟨_, -, e⟩ := Option.map_eq_some_iff.mp h
      cases e
      exact (occupiedBin_iff ..).mp hm

theorem slotChoice_occupied {s : State} {st : Station} {k b i : Nat} (h : s.slotChoice st = some (k, b, i)) :
    (s.bay st k).state = .occupied b := by
  unfold State.slotChoice at h
  split at h
  · next h0 =>
    cases h
    exact slotBay_occupied h0
  · split at h
    · next h1 =>
      cases h
      exact slotBay_occupied h1
    · cases h

theorem slotFetch_sound {s : State} (st : Station) (hs : s.ledger.Sound) : (s.slotFetch st).1.ledger.Sound := by
  unfold State.slotFetch
  split
  · exact hs
  · next n _ =>
    split
    · exact hs
    · next b hb =>
      split
      · exact hs
      · next hfree =>
        split
        · exact hs
        · next t h hcreate =>
          have hcell : (s.cell n).state = .occupied b := by
            cases hc : (s.cell n).state <;> simp_all [CellState.bin]
          obtain ⟨hshape, hadmits⟩ := fetchOrder_admits (hs.stored_of b n hcell) .ret st .C (effectiveAuthority 0 .C) none (cellLevel n)
          exact (createFetch_sound hs hcreate hshape hadmits rfl rfl (creationRefusal_bin hfree b rfl)).1

theorem allocSlot_sound {s : State} (st : Station) (hs : s.ledger.Sound) : (s.allocSlot st).1.ledger.Sound := by
  unfold State.allocSlot
  split
  · next k b i hch =>
    have hplace := hs.place_of_occupied (slotChoice_occupied hch)
    have hset := setComps_ledger s b ((s.bin b).comps.set i .claimed)
    dsimp only
    rw [Bin.setComp, hset]
    refine Ledger.SoundBut.setComps hs ?_ (fun h => .inl ?_) (fun _ => .inr ⟨st, k, hplace⟩)
    · rw [List.length_set]
      exact hs.sixteen b
    · exact (List.mem_or_eq_of_mem_set h).resolve_right Comp.noConfusion
  · split
    · exact hs
    · exact slotFetch_sound st hs

theorem ownSlot_sound {s : State} (n : Nat) (hs : s.ledger.Sound) : (ownSlot n s).1.ledger.Sound := by
  unfold ownSlot
  split
  · exact hs
  · exact allocSlot_sound _ hs

end Sys2Proof.Machine

end

/-! # VERIFY orders, NEXT and the ledger (O14) -/

section

namespace Sys2Proof.Machine

/-! ## VERIFY orders and the interval (R152 to R154) -/

theorem createVerify_ledger {s t : State} {x : Crane} {k a : Nat} {h : Handle} (e : s.createVerify x k a = some (t, h)) :
    t.ledger = s.ledger.addJob h (verifyOrder x (s.shareCell x k) a).job ∧ s.ledger.job h = none ∧ h.slot < 64 := by
  unfold State.createVerify at e
  split at e
  · cases e
  · split at e
    · cases e
    · next u g hcreate =>
      cases e
      obtain ⟨i, hi, rfl, rfl⟩ := create_some hcreate
      obtain ⟨hlt, hfree, -⟩ := freeSlot_some hi
      refine ⟨?_, ?_, hlt⟩
      · rw [spendCredit_ledger, moveCursor_ledger, fillSlot_ledger hfree]
      · have hnone : s.orderOf (s.newHandle i) = none := by simp [State.orderOf, State.newHandle, hfree]
        simp [State.ledger, hnone]

theorem createVerify_sound {s t : State} {x : Crane} {k a : Nat} {h : Handle} (hs : s.ledger.Sound)
    (e : s.createVerify x k a = some (t, h)) : t.ledger.Sound := by
  obtain ⟨heq, hnone, hlt⟩ := createVerify_ledger e
  rw [heq]
  exact Ledger.SoundBut.addJob hs hnone hlt ⟨rfl, ⟨_, rfl⟩, rfl⟩ nofun nofun (.inl ⟨rfl, nofun, nofun⟩)

theorem attemptUrgent_sound {s : State} (x : Crane) (hs : s.ledger.Sound) : (s.attemptUrgent x).ledger.Sound := by
  unfold State.attemptUrgent
  split
  · rwa [setLag_ledger]
  · split
    · exact hs
    · split
      · rwa [setLag_ledger]
      · next t h hcreate => exact createVerify_sound hs hcreate

theorem intervalCrane_sound {s : State} (x : Crane) (hs : s.ledger.Sound) : (s.intervalCrane x).ledger.Sound := by
  have hquiet : ∀ r, (s.setSchedCrane x r).ledger.Sound := fun r => by rwa [setSchedCrane_ledger]
  unfold State.intervalCrane
  dsimp only
  split
  · split
    · exact attemptUrgent_sound x (hquiet _)
    · exact hquiet _
  · exact attemptUrgent_sound x hs

/-! ## The dispatch of an order (R74) -/

@[simp] theorem startTimer_ledger (s : State) (i : Nat) : (s.startTimer i).ledger = s.ledger := by
  unfold State.startTimer
  split
  · rfl
  · next o ho => exact setOrder_ledger_quiet ho rfl

@[simp] theorem raiseBypass_ledger (s : State) (i : Nat) : (s.raiseBypass i).ledger = s.ledger := by
  unfold State.raiseBypass
  split
  · rfl
  · next o ho => exact setOrder_ledger_quiet ho rfl

/-- A bay that changes its state but not its bin. -/
theorem bayTo_ledger {s : State} {st : Station} {k : Nat} {x : BayState} (h : x.bin = (s.bay st k).state.bin) :
    (s.bayTo st k x).ledger = s.ledger := setBay_ledger_quiet _ _ _ _ h

theorem emptyBayOf_empty {s : State} {st : Station} {k : Nat} (h : s.emptyBayOf st = some k) : (s.bay st k).state = .empty := by
  simpa using List.find?_some h

/-- The bays at a dispatch: the records that the laws read stand, and the order keeps its job (R74). -/
theorem dispatchBay_quiet {s : State} {i : Nat} {o : Order} (hs : s.ledger.Sound) (h : (s.slot i).order = some o)
    (hq : o.state = .queued) (g : Handle) :
    (s.dispatchBay i o g).ledger = s.ledger ∧
      ∃ q, (s.dispatchBay i o g).slot i = ⟨(s.slot i).gen, some q⟩ ∧ q.job = o.job := by
  have hslot : s.slot i = ⟨(s.slot i).gen, some o⟩ := by rw [← h]
  have hstay : s.ledger = s.ledger ∧ ∃ q, s.slot i = ⟨(s.slot i).gen, some q⟩ ∧ q.job = o.job := ⟨rfl, o, hslot, rfl⟩
  have hout : ∀ st k n, o.source = .bay st k → o.bin = some n → (s.bayTo st k (.outbound n)).ledger = s.ledger ∧
      ∃ q, (s.bayTo st k (.outbound n)).slot i = ⟨(s.slot i).gen, some q⟩ ∧ q.job = o.job := fun st k n hsrc hbin => by
    have hsource := (hs.source _ _ n (job_handleAt h) hbin (by simp [Order.job, hq])).resolve_left id
    have hplace : s.ledger.place n = .atBay st k := hsource.2 st k hsrc
    exact ⟨bayTo_ledger ((hs.atBay n st k).mp hplace).symm, o, hslot, rfl⟩
  unfold State.dispatchBay
  split
  · split
    · exact hstay
    · next st _ =>
      split
      · exact hstay
      · next k hk =>
        have hquiet : (s.bayTo st k (.inbound g)).ledger = s.ledger := bayTo_ledger (by rw [emptyBayOf_empty hk]; rfl)
        have hslot' : ((s.bayTo st k (.inbound g)).slot i).order = some o := h
        refine ⟨(setOrder_ledger_quiet (q := { o with destBay := some k }) hslot' rfl).trans hquiet, { o with destBay := some k }, ?_, rfl⟩
        rw [setOrder_slot, if_pos rfl]
        rfl
  · split
    · next st k n hsrc hbin => exact hout st k n hsrc hbin
    · exact hstay
  · split
    · next st k n hsrc hbin => exact hout st k n hsrc hbin
    · exact hstay
  · exact hstay

/-- The order in a slot becomes DISPATCHED and its crane's active order. -/
theorem dispatched_ledger {t : State} {i g : Nat} {q r : Order} (h : t.slot i = ⟨g, some q⟩)
    (hr : r.job = { q.job with state := .dispatched }) :
    ((t.setSlot i ⟨g, some r⟩).setCrane q.crane { t.crane q.crane with active := some ⟨i, g⟩, waiting := false }).ledger =
      t.ledger.dispatch ⟨i, g⟩ q.job := by
  have hset : t.setSlot i ⟨g, some r⟩ = t.setOrder i (some r) := by rw [State.setOrder, h]
  have hhandle : t.handleAt i = ⟨i, g⟩ := by rw [State.handleAt, h]
  rw [hset, setCrane_ledger, setOrder_ledger, hhandle]
  ext1 <;> try rfl
  case job =>
    funext k
    change (if k = ⟨i, g⟩ then some r.job else _) = _
    rw [hr]
    rfl
  case carried | orphan =>
    funext c
    dsimp only
    split
    · next e => rw [e]; rfl
    · rfl

theorem dispatch_ledger {s : State} {i : Nat} {o : Order} (hs : s.ledger.Sound) (h : (s.slot i).order = some o)
    (hq : o.state = .queued) : (s.dispatch o.crane i).ledger = s.ledger.dispatch (s.handleAt i) o.job := by
  obtain ⟨hbay, q, hslot, hjob⟩ := dispatchBay_quiet hs h hq ⟨i, (s.slot i).gen⟩
  have hs' : s.slot i = ⟨(s.slot i).gen, some o⟩ := by rw [← h]
  have hcrane : q.crane = o.crane := congrArg Job.crane hjob
  rw [dispatch_eq hs' rfl hslot, ← hcrane, dispatched_ledger hslot rfl, hjob]
  exact congrArg (fun L => L.dispatch (s.handleAt i) o.job) hbay

/-- The dispatch of a QUEUED order to its crane, which has no active order and no orphan bin. -/
theorem dispatch_sound {s : State} {h : Handle} {j : Job} (hs : s.ledger.Sound) (hj : s.ledger.job h = some j)
    (hq : j.state = .queued) (ha : (s.crane j.crane).active = none) (ho : (s.crane j.crane).orphan = false) :
    (s.dispatch j.crane h.slot).ledger.Sound := by
  obtain ⟨o, hord, rfl⟩ := (ledger_job_iff ..).mp hj
  have hslot := orderOf_slot hord
  have heq := dispatch_ledger hs hslot hq
  exact heq ▸ Ledger.SoundBut.dispatch hs (job_handleAt hslot) hq ha ho

/-! ## NEXT (R65 to R73) -/

theorem setLevel_ledger (s : State) (x : Crane) (n : Nat) : (s.setLevel x n).ledger = s.ledger := by simp [State.setLevel]

theorem noneForm_ledger (s : State) (x : Crane) : (s.noneForm x).1.ledger = s.ledger := by simp [State.noneForm]

theorem wantedBay_sound {s : State} (st : Station) (k : Nat) (hs : s.ledger.Sound) : (s.wantedBay st k).ledger.Sound := by
  unfold State.wantedBay
  split
  · exact autoStow_sound st k hs
  · exact hs

theorem createOrphan_sound {s t : State} {x : Crane} {h : Handle} (hs : s.ledger.Sound) (ho : (s.crane x).orphan = true)
    (e : s.createOrphan x = some (t, h)) : t.ledger.Sound := by
  obtain ⟨hactive, -⟩ := (hs.orphan x).mp ho
  unfold State.createOrphan at e
  split at e
  · cases e
  · next b hb =>
    split at e
    · cases e
    · next hfree =>
      split at e
      · cases e
      · next n hn =>
        refine create_sound hs e ⟨nofun, .inr ⟨x, rfl⟩, fun d hd => ⟨n, by cases hd; rfl⟩⟩ (creationRefusal_bin hfree)
          (fun m _ hm => ?_) (.inr ⟨rfl, rfl, hactive, nofun, hb⟩)
        cases hm
        exact homeScan_empty hn

theorem nextOrphan_sound {s : State} {x : Crane} (hs : s.ledger.Sound) (ho : (s.crane x).orphan = true) :
    (s.nextOrphan x).1.ledger.Sound := by
  unfold State.nextOrphan
  split
  · next t h hcreate => simpa using createOrphan_sound hs ho hcreate
  · rwa [noneForm_ledger]

theorem nextVerify_sound {s : State} {x : Crane} (hs : s.ledger.Sound) (ha : (s.crane x).active = none)
    (ho : (s.crane x).orphan = false) : (s.nextVerify x).1.ledger.Sound := by
  unfold State.nextVerify
  split
  · rwa [noneForm_ledger]
  · split
    · rwa [noneForm_ledger]
    · next t h hcreate =>
      obtain ⟨heq, -⟩ := createVerify_ledger hcreate
      have hactive : t.ledger.active x = none := by rw [heq]; exact ha
      have horphan : t.ledger.orphan x = false := by rw [heq]; exact ho
      exact dispatch_sound (createVerify_sound hs hcreate) (j := (verifyOrder x _ 3).job) (by rw [heq]; exact if_pos rfl) rfl hactive horphan

theorem oldest_mem {l : List (Nat × Order)} {e : Nat × Order} (h : oldest l = some e) : e ∈ l := by
  have hfold : ∀ (l : List (Nat × Order)) (a : Nat × Order), l.foldl olderOf a = a ∨ l.foldl olderOf a ∈ l := by
    intro l
    induction l with
    | nil => exact fun a => .inl rfl
    | cons b rest ih =>
      intro a
      rcases ih (olderOf a b) with hr | hr
      · rw [List.foldl_cons, hr, olderOf]
        split
        · exact .inr (List.mem_cons_self ..)
        · exact .inl rfl
      · exact .inr (List.mem_cons_of_mem _ hr)
  cases l with
  | nil => cases h
  | cons a rest =>
    cases h
    rcases hfold rest a with hr | hr
    · rw [hr]
      exact List.mem_cons_self ..
    · exact List.mem_cons_of_mem _ hr

/-- The level preference chooses one of the orders, whatever their ages (R71). -/
theorem choose_mem {l : List (Nat × Order)} {level i : Nat} {raised : List Nat} (h : choose l level = some (i, raised)) :
    ∃ o, (i, o) ∈ l := by
  unfold choose at h
  split at h
  · cases h
  · next o ho =>
    have hmem : ∃ q, (o.1, q) ∈ l := ⟨o.2, oldest_mem ho⟩
    split at h
    · cases h
      exact hmem
    · split at h
      · cases h
        exact hmem
      · next q hq =>
        split at h
        · cases h
          exact ⟨q.2, List.mem_of_mem_filter (oldest_mem hq)⟩
        · cases h
          exact hmem

theorem nextSelect_sound {s : State} {x : Crane} (level : Nat) (hs : s.ledger.Sound) (ha : (s.crane x).active = none)
    (ho : (s.crane x).orphan = false) : (s.nextSelect x level).1.ledger.Sound := by
  unfold State.nextSelect
  split
  · next i raised hch =>
    obtain ⟨o, hmem⟩ := choose_mem hch
    obtain ⟨hlive, helig⟩ := List.mem_filter.mp ((mem_candidates ..).mp hmem).1
    obtain ⟨-, hslot⟩ := (mem_liveOrders ..).mp hlive
    obtain ⟨hqueued, rfl, -⟩ := (eligible_iff ..).mp helig
    have hquiet : (raised.foldl (fun u j => u.raiseBypass j) s).ledger = s.ledger := foldl_ledger raiseBypass_ledger raised s
    have hactive : (raised.foldl (fun u j => u.raiseBypass j) s).ledger.active o.crane = none := by rw [hquiet]; exact ha
    have horphan : (raised.foldl (fun u j => u.raiseBypass j) s).ledger.orphan o.crane = false := by rw [hquiet]; exact ho
    exact dispatch_sound (h := s.handleAt i) (j := o.job) (by rw [hquiet]; exact hs) (by rw [hquiet]; exact job_handleAt hslot) hqueued hactive horphan
  · exact nextVerify_sound hs ha ho

theorem next_sound {s : State} (x : Crane) (level : Nat) (hs : s.ledger.Sound) : (s.next x level).1.ledger.Sound := by
  have ht : ((s.setLevel x level).wantedBays x).ledger.Sound :=
    wantedBay_sound _ 1 (wantedBay_sound _ 0 (by rwa [setLevel_ledger]))
  unfold State.next
  dsimp only
  split
  · simpa using ht
  · next hactive =>
    split
    · next horphan => exact nextOrphan_sound ht horphan
    · next horphan => exact nextSelect_sound level ht hactive (by simpa using horphan)

/-- A request of a crane's own port. -/
theorem onCrane_sound {p : Port} {s : State} {f : Crane → State × Reply} (hs : s.ledger.Sound) (hf : ∀ c, (f c).1.ledger.Sound) :
    (onCrane p s f).1.ledger.Sound := by
  unfold onCrane
  split
  · exact hf _
  · exact hs

theorem ownNext_sound {s : State} (p : Port) (level : Nat) (hs : s.ledger.Sound) : (ownNext p level s).1.ledger.Sound := by
  unfold ownNext
  split
  · exact onCrane_sound hs fun c => next_sound c level hs
  · exact hs

end Sys2Proof.Machine

end

/-! # Bins that become MISPLACED, TAG, and the ledger (O14) -/

section

namespace Sys2Proof.Machine

/-! ## What an operation leaves until it ends -/

theorem Ledger.SoundBut.mono {L : Ledger} {lost lost' : Nat → Prop} {broken broken' : Handle → Prop} (hL : L.SoundBut lost broken)
    (hl : ∀ b, lost b → lost' b) (hb : ∀ h, broken h → broken' h) : L.SoundBut lost' broken' :=
  { hL with
    reserves := fun n h j hj hk hd => (hL.reserves n h j hj hk hd).imp_right (hb h)
    source := fun h j b hj hbin hs => (hL.source h j b hj hbin hs).imp_left (hl b) }

/-- A bin whose live order, if any, is LOADED is at no order's source. -/
theorem Ledger.SoundBut.forget {L : Ledger} {lost : Nat → Prop} {broken : Handle → Prop} {b : Nat} (hL : L.SoundBut lost broken)
    (hb : ∀ h j, L.job h = some j → j.bin = some b → j.state = .loaded) : L.SoundBut (fun m => lost m ∧ m ≠ b) broken :=
  { hL with
    source := fun h j m hj hbin hs =>
      (hL.source h j m hj hbin hs).imp_left fun hm => ⟨hm, by rintro rfl; exact hs (hb h j hj hbin)⟩ }

/-- The live order of a bin made MISPLACED fails (R160), but for an order that the operation itself is to end. -/
theorem failMisplaced_sound {s : State} {lost : Nat → Prop} {broken : Handle → Prop} (hs : s.ledger.SoundBut lost broken)
    (except : Option Nat) (b : Nat) :
    (s.failMisplaced except b).ledger.SoundBut
      (fun m => lost m ∧ (m ≠ b ∨ ∃ i o, except = some i ∧ (s.slot i).order = some o ∧ o.bin = some b)) broken := by
  have hforget : (∀ h j, s.ledger.job h = some j → j.bin = some b → j.state = .loaded) →
      s.ledger.SoundBut (fun m => lost m ∧ (m ≠ b ∨ ∃ i o, except = some i ∧ (s.slot i).order = some o ∧ o.bin = some b)) broken :=
    fun hb => (hs.forget hb).mono (fun m hm => ⟨hm.1, .inl hm.2⟩) (fun _ h => h)
  cases hb : (s.bin b).order with
  | none =>
    have hstay : s.failMisplaced except b = s := by simp [State.failMisplaced, State.slotOfBin, hb]
    rw [hstay]
    refine hforget fun h j hj hbin => ?_
    have hown := hs.handle_of h j b hj hbin
    exact absurd (hb.symm.trans hown) nofun
  | some h =>
    obtain ⟨j, hj, hbin⟩ := (hs.bound b h).mp hb
    obtain ⟨o, ho, rfl⟩ := (ledger_job_iff ..).mp hj
    have hslot := orderOf_slot ho
    have hof : s.slotOfBin b = some h.slot := by simp [State.slotOfBin, hb, ho]
    unfold State.failMisplaced
    simp only [hof, hslot]
    split
    · next hex => exact hs.mono (fun m hm => ⟨hm, .inr ⟨h.slot, o, hex.symm, hslot, hbin⟩⟩) (fun _ h => h)
    · split
      · next hload =>
        refine hforget fun k q hq hqb => ?_
        have hown := hs.handle_of k q b hq hqb
        cases hb.symm.trans hown
        cases hj.symm.trans hq
        exact hload
      · refine (hs.endOrder hslot (fun _ => FinalState.noConfusion) _).mono (fun m hm => ⟨hm.1, .inl ?_⟩) (fun _ h => h.1)
        rintro rfl
        exact hm.2 hbin

theorem failEach_sound {lost : Nat → Prop} {broken : Handle → Prop} (l : List Nat) {s : State} (hs : s.ledger.SoundBut lost broken) :
    (l.foldl (fun v b => v.failMisplaced none b) s).ledger.SoundBut (fun m => lost m ∧ m ∉ l) broken := by
  induction l generalizing s lost with
  | nil => exact hs.mono (fun m hm => ⟨hm, List.not_mem_nil⟩) (fun _ h => h)
  | cons b rest ih =>
    refine (ih (failMisplaced_sound hs none b)).mono (fun m hm => ?_) (fun _ h => h)
    obtain ⟨⟨hlost, hne | ⟨_, _, e, -⟩⟩, hrest⟩ := hm
    · exact ⟨hlost, by simp [hne, hrest]⟩
    · cases e

/-! ## Orders that an operation does not create -/

/-- Every live order of `t` is one of `s`, in the same slot and doing the same job. -/
def State.JobsFrom (t s : State) : Prop := ∀ h j, t.ledger.job h = some j → s.ledger.job h = some j

theorem State.JobsFrom.slot {s t : State} {i : Nat} {q : Order} (ht : t.JobsFrom s) (h : (t.slot i).order = some q) :
    ∃ o, (s.slot i).order = some o ∧ o.job = q.job := by
  obtain ⟨o, ho, hjob⟩ := (ledger_job_iff ..).mp (ht _ _ (job_handleAt h))
  exact ⟨o, orderOf_slot ho, hjob⟩

theorem endOrder_jobs (s : State) (i : Nat) (f : FinalState) (x : Option EndOutcome) : (s.endOrder i f x).JobsFrom s := by
  intro h j hj
  cases ho : (s.slot i).order with
  | none => rwa [endOrder_none ho] at hj
  | some o =>
    rw [endOrder_ledger ho] at hj
    change (if h = s.handleAt i then none else s.ledger.job h) = some j at hj
    split at hj
    · cases hj
    · exact hj

theorem failMisplaced_jobs (s : State) (except : Option Nat) (b : Nat) : (s.failMisplaced except b).JobsFrom s := by
  unfold State.failMisplaced
  split
  · exact fun _ _ h => h
  · split
    · exact fun _ _ h => h
    · split
      · exact fun _ _ h => h
      · split
        · exact fun _ _ h => h
        · exact endOrder_jobs _ _ _ _

theorem failEach_jobs (l : List Nat) (s : State) : (l.foldl (fun v b => v.failMisplaced none b) s).JobsFrom s := by
  induction l generalizing s with
  | nil => exact fun _ _ h => h
  | cons b rest ih => exact fun h j hj => failMisplaced_jobs s none b h j (ih _ h j hj)

/-! ## The result of a TAG (R158, R159) -/

/-- The bins that a TAG's result takes from their place to MISPLACED. -/
def TagLost (s t : State) (n : Nat) (r : TagResult) (b : Nat) : Prop :=
  b ∈ tagBins (s.cell n).state r ∧ (s.bin b).place ≠ .misplaced ∧ (t.bin b).place = .misplaced

/-- The ledger after a TAG's result: sound, but that the bins it lost are at no source. -/
def TagKeeps (s : State) (n : Nat) (r : TagResult) (t : State) : Prop :=
  t.ledger.SoundBut (TagLost s t n r) (fun _ => False) ∧ t.ledger.job = s.ledger.job

theorem TagKeeps.quiet {s t : State} {n : Nat} {r : TagResult} (hs : s.ledger.Sound) (h : t.ledger = s.ledger) : TagKeeps s n r t := by
  refine ⟨?_, by rw [h]⟩
  rw [h]
  exact Ledger.SoundBut.mono hs (fun _ => False.elim) (fun _ => id)

theorem stampCell_ledger (s : State) (n : Nat) : (s.stampCell n).ledger = s.ledger := setCell_ledger_quiet _ _ _ rfl

theorem enterSuspect_job (s : State) (n : Nat) : (s.enterSuspect n).ledger.job = s.ledger.job := by
  rw [enterSuspect_ledger]
  rfl

/-- The bin that a cell records when the cell enters SUSPECT is MISPLACED, and a MISPLACED bin stays so. -/
theorem enterSuspect_misplaces (s : State) (n b : Nat) :
    ((s.enterSuspect n).bin b).place = .misplaced ↔ (s.cell n).state = .occupied b ∨ (s.bin b).place = .misplaced := by
  have hplace : ((s.enterSuspect n).bin b).place = if (s.cell n).state = .occupied b then .misplaced else (s.bin b).place :=
    congrArg (fun L => L.place b) (enterSuspect_ledger s n)
  rw [hplace]
  split <;> simp_all

theorem mem_tagBins_cell {x : CellState} {b : Nat} (h : x = .occupied b) (r : TagResult) : b ∈ tagBins x r := by
  subst h
  cases r <;> simp [tagBins, CellState.bin]

theorem suspect_sound {s : State} {lost : Nat → Prop} {broken : Handle → Prop} {n : Nat} (hs : s.ledger.SoundBut lost broken)
    (hn : ∀ h, (s.cell n).state ≠ .reserved h) :
    (s.enterSuspect n).ledger.SoundBut (fun b => lost b ∨ (s.cell n).state = .occupied b) broken := by
  rw [enterSuspect_ledger]
  exact (hs.spoil (fun _ => CellState.noConfusion) (fun _ => CellState.noConfusion)).mono (fun _ h => h)
    (fun h hh => hh.resolve_right (hn h))

/-- The cell of the TAG enters SUSPECT. -/
theorem TagKeeps.suspect {s : State} {n : Nat} (r : TagResult) (hs : s.ledger.Sound) (hn : ∀ h, (s.cell n).state ≠ .reserved h) :
    TagKeeps s n r (s.enterSuspect n) := by
  refine ⟨(suspect_sound hs hn).mono (fun b hb => ?_) (fun _ => id), enterSuspect_job ..⟩
  have hcell := hb.resolve_left id
  have hplace : (s.bin b).place = .stored n := hs.stored_of b n hcell
  exact ⟨mem_tagBins_cell hcell r, by simp [hplace], (enterSuspect_misplaces ..).mpr (.inl hcell)⟩

/-- A tag that names another bin than the cell's: the cell enters SUSPECT, and so does the cell of the bin named (R158). -/
theorem TagKeeps.mismatch {s : State} {n b b' : Nat} (hs : s.ledger.Sound) (hc : (s.cell n).state = .occupied b) (hne : b ≠ b') :
    TagKeeps s n (.tag b') (s.tagMismatch n b') := by
  have hone : TagKeeps s n (.tag b') (s.enterSuspect n) := .suspect _ hs (by simp [hc])
  unfold State.tagMismatch
  dsimp only
  split
  · next m hm =>
    split
    · exact hone
    · next hmn =>
      have hm' : (s.bin b').place = .stored m := by
        have hplace := enterSuspect_place hc b'
        rwa [if_neg (Ne.symm hne), hm, eq_comm] at hplace
      have hcell : (s.cell m).state = .occupied b' := (hs.stored b' m).mp hm'
      have hcell' : ((s.enterSuspect n).cell m).state = .occupied b' := by
        have hstate := congrArg (fun L => L.cell m) (enterSuspect_ledger s n)
        exact hstate.trans ((if_neg hmn).trans hcell)
      refine ⟨(suspect_sound hone.1 (by simp [hcell'])).mono (fun e he => ?_) (fun _ => id), (enterSuspect_job ..).trans hone.2⟩
      rcases he with ⟨hmem, hbefore, hafter⟩ | he
      · exact ⟨hmem, hbefore, (enterSuspect_misplaces ..).mpr (.inr hafter)⟩
      · cases hcell'.symm.trans he
        exact ⟨by simp [tagBins], by simp [hm'], (enterSuspect_misplaces ..).mpr (.inl he)⟩
  all_goals exact hone

/-- The registration of a bin that no record names (R158). -/
theorem TagKeeps.register {s : State} {n b : Nat} (r : TagResult) (hs : s.ledger.Sound) (hc : (s.cell n).state = .unverified)
    (hb : (s.bin b).place = .unregistered) : TagKeeps s n r (s.registerBin n b) := by
  have heq : (s.registerBin n b).ledger = s.ledger.assign b (some n) (List.replicate 16 .occupied) := by
    have hb' : s.ledger.place b = .unregistered := hb
    rw [registerBin_eq, setCell_ledger, setBin_ledger]
    ext1 <;> try rfl
    case handle =>
      funext m
      dsimp only [Ledger.assign]
      split
      · next e => rw [e]; rfl
      · rfl
    case cell =>
      funext m
      simp only [Ledger.assign, hb', reduceCtorEq, if_false, Option.some.injEq, eq_comm (a := m)]
    case bay =>
      funext st k
      simp only [Ledger.assign, hb', reduceCtorEq, if_false]
  refine ⟨?_, by rw [heq]; rfl⟩
  have hb' : s.ledger.place b = .unregistered := hb
  have hc' : s.ledger.cell n = .unverified := hc
  have hsound : s.ledger.assign b (some n) (List.replicate 16 .occupied) |>.Sound :=
    Ledger.SoundBut.assign hs (.inr hb') (by simp [hb']) (List.length_replicate ..) (by simp) (by simp)
      (fun m hm => by cases hm; exact .inr (by simp [hc']))
  rw [heq]
  exact Ledger.SoundBut.mono hsound (fun _ => False.elim) (fun _ => id)

/-- An UNVERIFIED cell found without a bin (R158). -/
theorem TagKeeps.emptied {s : State} {n : Nat} (r : TagResult) (hs : s.ledger.Sound) (hc : (s.cell n).state = .unverified) :
    TagKeeps s n r ((s.cellTo n .empty).stampCell n) := by
  have hfree : ∀ b, (s.cell n).state ≠ .occupied b := by simp [hc]
  have hopen : ∀ h, (s.cell n).state ≠ .reserved h := by simp [hc]
  have heq : ((s.cellTo n .empty).stampCell n).ledger = s.ledger.spoil n .empty := (stampCell_ledger ..).trans (cellTo_ledger hfree _)
  refine ⟨?_, by rw [heq]; rfl⟩
  have hsound := hs.spoil hfree hopen (x := .empty) (fun _ => CellState.noConfusion) (fun _ => CellState.noConfusion)
  rw [heq]
  exact Ledger.SoundBut.mono hsound (fun _ => False.elim) (fun _ => id)

theorem applyResult_keeps {s : State} (n : Nat) (r : TagResult) (hs : s.ledger.Sound) : TagKeeps s n r (s.applyResult n r) := by
  have hquiet : ∀ {t}, t.ledger = s.ledger → TagKeeps s n r t := .quiet hs
  unfold State.applyResult
  split
  · next happ =>
    have hn : ∀ h, (s.cell n).state ≠ .reserved h := fun h e => by simp [e, CellState.tagApplies] at happ
    split
    · next b' =>
      unfold State.applyTag
      split
      · next b hc =>
        split
        · exact hquiet (stampCell_ledger ..)
        · next hne => exact .mismatch hs hc hne
      · exact .suspect _ hs hn
      · next hc =>
        split
        · next hb => exact .register _ hs hc hb
        · exact .suspect _ hs hn
      all_goals exact hquiet rfl
    · unfold State.applyNoBin
      split
      · exact .suspect _ hs hn
      · exact hquiet (stampCell_ledger ..)
      · next hc => exact .emptied _ hs hc
      all_goals exact hquiet rfl
    · unfold State.unreadable
      split
      · exact hquiet (setCell_ledger_quiet _ _ _ rfl)
      · exact .suspect _ hs hn
  · exact hquiet rfl

theorem failTagged_sound {s t : State} {n : Nat} {r : TagResult} (h : TagKeeps s n r t) :
    (s.failTagged t (tagBins (s.cell n).state r)).ledger.Sound ∧ (s.failTagged t (tagBins (s.cell n).state r)).JobsFrom s := by
  obtain ⟨ht, hjobs⟩ := h
  rw [failTagged_eq]
  refine ⟨.of_but (failEach_sound _ ht) (fun b hb => ?_) (fun _ => id), fun k j hj => ?_⟩
  · obtain ⟨⟨hmem, hlost⟩, hnot⟩ := hb
    exact hnot (List.mem_filter.mpr ⟨hmem, decide_eq_true hlost⟩)
  · rw [← hjobs]
    exact failEach_jobs _ t k j hj

theorem tag_sound {s : State} (c : Crane) (h : Handle) (r : TagResult) (hs : s.ledger.Sound) : (s.tag c h r).1.ledger.Sound := by
  unfold State.tag
  split
  · exact hs
  · next o ho =>
    split
    · exact hs
    · next n _ =>
      split
      · next hkd =>
        obtain ⟨ht, hjobs⟩ := failTagged_sound (applyResult_keeps n r hs)
        refine endOrder_sound ht (fun q hq hload => ?_) none
        obtain ⟨o', ho', hjob⟩ := hjobs.slot hq
        have ho'' : s.orderOf h = some o := by
          unfold State.activeOrder at ho
          split at ho
          · exact ho
          · cases ho
        cases (orderOf_slot ho'').symm.trans ho'
        have hstate : o.state = q.state := congrArg Job.state hjob
        simp [← hstate, hkd.2] at hload
      · exact hs

theorem ownTag_sound {s : State} (p : Port) (a : TagArgs) (hs : s.ledger.Sound) : (ownTag p a s).1.ledger.Sound := by
  unfold ownTag
  split
  · exact onCrane_sound hs fun c => tag_sound c _ _ hs
  · exact hs

end Sys2Proof.Machine

end

/-! # The crane reports and the ledger (O14) -/

section

namespace Sys2Proof.Machine

/-! ## The moves of R30 -/

theorem setCarried_ledger (s : State) (c : Crane) (x : Option Nat) :
    (s.setCarried c x).ledger = { s.ledger with carried := fun y => if y = c then x else s.ledger.carried y } := by
  rw [State.setCarried, setCrane_ledger]
  ext1 <;> try rfl
  case active | orphan =>
    funext y
    dsimp only
    split
    · next e => rw [e]; rfl
    · rfl

theorem binTo_ledger (s : State) (b : Nat) (x : BinPlace) :
    (s.binTo b x).ledger = { s.ledger with place := fun m => if m = b then x else s.ledger.place m } := by
  rw [State.binTo, setBin_ledger]
  ext1 <;> try rfl
  case comps | handle =>
    funext m
    dsimp only
    split
    · next e => rw [e]; rfl
    · rfl

theorem cellTo_ledger_cell (s : State) (n : Nat) (x : CellState) :
    (s.cellTo n x).ledger = { s.ledger with cell := fun m => if m = n then x else s.ledger.cell m } := setCell_ledger ..

theorem loadFromCell_ledger (s : State) (c : Crane) (n b : Nat) :
    (s.loadFromCell c n b).ledger =
      { s.ledger with
        place := fun m => if m = b then .onCrane c else s.ledger.place m
        cell := fun m => if m = n then .empty else s.ledger.cell m
        carried := fun x => if x = c then some b else s.ledger.carried x } := by
  rw [State.loadFromCell, setCarried_ledger, binTo_ledger, cellTo_ledger_cell]

theorem loadFromBay_ledger (s : State) (c : Crane) (st : Station) (k b : Nat) :
    (s.loadFromBay c st k b).ledger =
      { s.ledger with
        place := fun m => if m = b then .onCrane c else s.ledger.place m
        comps := fun m => if m = b then (s.ledger.comps m).map Comp.reverted else s.ledger.comps m
        bay := fun st' k' => if st' = st ∧ k' = k then none else s.ledger.bay st' k'
        carried := fun x => if x = c then some b else s.ledger.carried x } := by
  have hbay : (s.emptyBay st k).ledger = { s.ledger with bay := fun st' k' => if st' = st ∧ k' = k then none else s.ledger.bay st' k' } :=
    setBay_ledger ..
  simp only [State.loadFromBay]
  rw [setCarried_ledger, setBin_ledger, binTo_ledger, hbay]
  have hbin : ((s.emptyBay st k).binTo b (.onCrane c)).bin b = { (s.emptyBay st k).bin b with place := .onCrane c } := by
    rw [State.binTo, State.setBin_bin, if_pos rfl]
  rw [hbin]
  ext1 <;> try rfl
  case place =>
    funext m
    dsimp only
    split <;> rfl
  case handle =>
    funext m
    dsimp only
    split
    · next e => rw [e]; rfl
    · rfl
  case comps =>
    funext m
    dsimp only
    split
    · next e =>
      rw [reverted_comps', e]
      rfl
    · rfl

theorem deliverToBay_ledger (s : State) (c : Crane) (st : Station) (k b : Nat) (keep : Bool) :
    (s.deliverToBay c st k b keep).ledger = s.ledger.deliverBay c st k b := by
  rw [State.deliverToBay, setCarried_ledger, binTo_ledger, setBay_ledger]
  rfl

theorem deliverToCell_ledger (s : State) (c : Crane) (n b : Nat) : (s.deliverToCell c n b).ledger = s.ledger.deliverCell c n b := by
  rw [State.deliverToCell, setCarried_ledger, binTo_ledger, cellTo_ledger_cell]
  rfl

theorem loadFromCell_slot (s : State) (c : Crane) (n b i : Nat) : (s.loadFromCell c n b).slot i = s.slot i := by
  obtain ⟨_, _, _, _, e⟩ := loadFromCell_frame s c n b
  rw [e]
  rfl

theorem loadFromBay_slot (s : State) (c : Crane) (st : Station) (k b i : Nat) : (s.loadFromBay c st k b).slot i = s.slot i := by
  obtain ⟨_, _, _, _, e⟩ := loadFromBay_frame s c st k b
  rw [e]
  rfl

theorem deliverToBay_slot (s : State) (c : Crane) (st : Station) (k b : Nat) (keep : Bool) (i : Nat) : (s.deliverToBay c st k b keep).slot i = s.slot i := by
  obtain ⟨_, _, _, _, e⟩ := deliverToBay_frame s c st k b keep
  rw [e]
  rfl

theorem deliverToCell_slot (s : State) (c : Crane) (n b i : Nat) : (s.deliverToCell c n b).slot i = s.slot i := by
  obtain ⟨_, _, _, _, e⟩ := deliverToCell_frame s c n b
  rw [e]
  rfl

/-! ## The active order (R77) -/

theorem handleAt_of_slot {s t : State} {i : Nat} (h : t.slot i = s.slot i) : t.handleAt i = s.handleAt i := by
  rw [State.handleAt, h]
  rfl

theorem handle_of_orderOf {s : State} {h : Handle} {o : Order} (ho : s.orderOf h = some o) : s.handleAt h.slot = h := by
  by_contra hne
  rw [orderOf_of_slot rfl (Ne.symm hne)] at ho
  cases ho

theorem activeOrder_facts {s : State} {c : Crane} {h : Handle} {o : Order} (hs : s.ledger.Sound) (ha : s.activeOrder c h = some o) :
    (s.slot h.slot).order = some o ∧ s.handleAt h.slot = h ∧ s.ledger.job h = some o.job ∧ o.crane = c := by
  unfold State.activeOrder at ha
  split at ha
  · next hact =>
    have hj : s.ledger.job h = some o.job := (ledger_job_iff ..).mpr ⟨o, ha, rfl⟩
    obtain ⟨j, hj', hc, -⟩ := (hs.active c h).mp hact
    cases hj.symm.trans hj'
    exact ⟨orderOf_slot ha, handle_of_orderOf ha, hj, hc⟩
  · cases ha

theorem withActive_sound {s : State} {c : Crane} {h : Handle} {f : Order → State × Reply} (hs : s.ledger.Sound)
    (hf : ∀ o, s.activeOrder c h = some o → (f o).1.ledger.Sound) : (withActive s c h f).1.ledger.Sound := by
  unfold withActive
  split
  · exact hs
  · next o ho => exact hf o ho

/-! ## LOAD (R78, R79) -/

theorem markLoaded_ledger {s : State} {i : Nat} {o : Order} (h : (s.slot i).order = some o) :
    (s.markLoaded i).ledger =
      { s.ledger with job := fun k => if k = s.handleAt i then some { o.job with state := .loaded } else s.ledger.job k } := by
  simp only [State.markLoaded, h]
  rw [startTimer_ledger, setOrder_ledger]
  rfl

theorem loadRedestine_sound {s : State} (i : Nat) (hs : s.ledger.Sound) : (s.loadRedestine i).ledger.Sound := by
  unfold State.loadRedestine
  split
  · exact hs
  · next o ho =>
    split
    · next hk =>
      rw [Bool.and_eq_true] at hk
      exact redestine_sound hs ho ((stows_iff _).mp hk.1)
    · exact hs

theorem loadFrom_sound {s : State} {c : Crane} {h : Handle} {o : Order} {b : Nat} (hs : s.ledger.Sound)
    (ha : s.activeOrder c h = some o) (hd : o.state = .dispatched) (hb : o.bin = some b) :
    (s.loadFrom c h.slot o b).1.ledger.Sound := by
  obtain ⟨hslot, hhandle, hjob, rfl⟩ := activeOrder_facts hs ha
  unfold State.loadFrom
  split
  · next n _ =>
    split
    · next hcell =>
      refine loadRedestine_sound _ ?_
      have hslot' : ((s.loadFromCell o.crane n b).slot h.slot).order = some o := (congrArg Slot.order (loadFromCell_slot ..)).trans hslot
      have hhandle' : (s.loadFromCell o.crane n b).handleAt h.slot = h :=
        (handleAt_of_slot (loadFromCell_slot ..)).trans hhandle
      rw [markLoaded_ledger hslot', hhandle', loadFromCell_ledger]
      exact Ledger.SoundBut.loadCell hs hjob hd hb hcell.1
    · exact hs
  · next st k _ =>
    split
    · next hbay =>
      refine loadRedestine_sound _ ?_
      have hslot' : ((s.loadFromBay o.crane st k b).slot h.slot).order = some o := (congrArg Slot.order (loadFromBay_slot ..)).trans hslot
      have hhandle' : (s.loadFromBay o.crane st k b).handleAt h.slot = h :=
        (handleAt_of_slot (loadFromBay_slot ..)).trans hhandle
      have hout : s.ledger.bay st k = some b := (bayBin_iff ..).mpr (.inr hbay)
      rw [markLoaded_ledger hslot', hhandle', loadFromBay_ledger]
      exact Ledger.SoundBut.loadBay hs hjob hd hb hout
    · exact hs
  all_goals exact hs

theorem load_sound {s : State} (c : Crane) (h : Handle) (hs : s.ledger.Sound) : (s.load c h).1.ledger.Sound := by
  refine withActive_sound hs fun o ho => ?_
  split
  · exact hs
  · next hd hb => exact loadFrom_sound hs ho hd hb
  all_goals exact hs

theorem ownLoad_sound {s : State} (p : Port) (a : Nat × Nat) (hs : s.ledger.Sound) : (ownLoad p a s).1.ledger.Sound := by
  unfold ownLoad
  split
  · exact onCrane_sound hs fun c => load_sound c _ hs
  · exact hs

/-! ## DONE (R80, R81) -/

theorem deliveryBay_inbound {s : State} {o : Order} {h : Handle} {st : Station} {k : Nat} (e : s.deliveryBay o h = some (st, k)) :
    (s.bay st k).state = .inbound h := by
  unfold State.deliveryBay at e
  split at e
  · split at e
    · next hin =>
      cases e
      exact hin
    · cases e
  · cases e

theorem doneFetch_sound {s : State} {c : Crane} {h : Handle} {o : Order} {b : Nat} (hs : s.ledger.Sound)
    (ha : s.activeOrder c h = some o) (hl : o.state = .loaded) (hb : o.bin = some b) : (s.doneFetch c h o b).1.ledger.Sound := by
  obtain ⟨hslot, hhandle, hjob, rfl⟩ := activeOrder_facts hs ha
  unfold State.doneFetch
  split
  · exact hs
  · next st k hbay =>
    have hin := deliveryBay_inbound hbay
    have hempty : s.ledger.bay st k = none := congrArg BayState.bin hin
    dsimp only
    generalize (o.purpose == .ret || !(s.bin b).hasPending) = keep
    have hslot' : ((s.deliverToBay o.crane st k b keep).slot h.slot).order = some o := (congrArg Slot.order (deliverToBay_slot ..)).trans hslot
    have hhandle' : (s.deliverToBay o.crane st k b keep).handleAt h.slot = h :=
        (handleAt_of_slot (deliverToBay_slot ..)).trans hhandle
    rw [raise_ledger, endOrder_ledger hslot', hhandle', deliverToBay_ledger]
    exact Ledger.SoundBut.deliverBay hs hjob hl hb hempty

theorem doneStow_sound {s : State} {c : Crane} {h : Handle} {o : Order} {b : Nat} (cell : Option Nat) (hs : s.ledger.Sound)
    (ha : s.activeOrder c h = some o) (hl : o.state = .loaded) (hk : o.kind ≠ .fetch) (hb : o.bin = some b) :
    (s.doneStow c h o b cell).1.ledger.Sound := by
  obtain ⟨hslot, hhandle, hjob, rfl⟩ := activeOrder_facts hs ha
  unfold State.doneStow
  split
  · exact hs
  · next n _ =>
    split
    · exact hs
    · split
      · exact hs
      · next hres =>
        have hslot' : ((s.deliverToCell o.crane n b).slot h.slot).order = some o := (congrArg Slot.order (deliverToCell_slot ..)).trans hslot
        have hhandle' : (s.deliverToCell o.crane n b).handleAt h.slot = h :=
        (handleAt_of_slot (deliverToCell_slot ..)).trans hhandle
        rw [endOrder_ledger hslot', hhandle', deliverToCell_ledger]
        exact Ledger.SoundBut.deliverCell hs hjob hl hb (not_not.mp hres) hk

theorem doneReport_sound {s : State} (c : Crane) (h : Handle) (cell : Option Nat) (hs : s.ledger.Sound) :
    (s.doneReport c h cell).1.ledger.Sound := by
  unfold State.doneReport
  split
  · next o ho =>
    split
    · next hl _ hb =>
      split
      · exact hs
      · exact doneFetch_sound hs ho hl hb
    · next hl hk hb => exact doneStow_sound cell hs ho hl (by simp [hk]) hb
    · next hl hk hb => exact doneStow_sound cell hs ho hl (by simp [hk]) hb
    · exact hs
  · split
    · exact hs
    · exact hs

theorem ownDone_sound {s : State} (p : Port) (a : ReportArgs) (hs : s.ledger.Sound) : (ownDone p a s).1.ledger.Sound := by
  unfold ownDone
  split
  · exact onCrane_sound hs fun c => doneReport_sound c _ _ hs
  · exact hs

/-! ## UNABLE (R82 to R87) -/

@[simp] theorem stillWanted_ledger (s : State) (o : Order) : (s.stillWanted o).ledger = s.ledger := by
  unfold State.stillWanted
  split
  · rw [setStowWanted_ledger]
  · rfl

/-- An end by UNABLE mends what the report's own changes left. -/
theorem unableEnd_sound {s : State} {lost : Nat → Prop} {broken : Handle → Prop} {i : Nat} {o : Order} {f : FinalState}
    (hs : s.ledger.SoundBut lost broken) (h : (s.slot i).order = some o) (hf : f ≠ .complete) (x : EndOutcome)
    (hl : ∀ b, lost b → o.bin = some b) (hb : ∀ k, broken k → k = s.handleAt i) : (s.unableEnd i o f x).1.ledger.Sound := by
  unfold State.unableEnd
  dsimp only
  rw [stillWanted_ledger]
  exact .of_but (hs.endOrder h (fun _ => hf) _) (fun b h => h.2 (hl b h.1)) (fun k h => h.2 (hb k h.1))

theorem unableEnd_plain {s : State} {i : Nat} {o : Order} {f : FinalState} (hs : s.ledger.Sound) (h : (s.slot i).order = some o)
    (hf : f ≠ .complete) (x : EndOutcome) : (s.unableEnd i o f x).1.ledger.Sound :=
  unableEnd_sound hs h hf x (fun _ => False.elim) (fun _ => False.elim)

theorem enterSuspect_slot (s : State) (n i : Nat) : (s.enterSuspect n).slot i = s.slot i := by
  unfold State.enterSuspect
  split
  · rfl
  · rw [State.raise, State.setPort_slot, State.cellTo, State.setCell_slot]
    cases (s.cell n).state.bin <;> rfl

theorem unableEmpty_sound {s : State} {c : Crane} {h : Handle} {o : Order} (cell : Option Nat) (hs : s.ledger.Sound)
    (ha : s.activeOrder c h = some o) (hd : o.state = .dispatched) : (s.unableEmpty h.slot o cell).1.ledger.Sound := by
  obtain ⟨hslot, hhandle, hjob, -⟩ := activeOrder_facts hs ha
  unfold State.unableEmpty
  split
  · next n hsrc =>
    split
    · exact hs
    · next hno =>
      have hkind : o.kind ≠ .verify := fun e => hno (.inl e)
      obtain ⟨b, hb⟩ : ∃ b, o.bin = some b := by
        have hshape := (job_shaped o).mp (hs.shaped h _ hjob)
        unfold Order.Shaped at hshape
        cases hk : o.kind with
        | verify => exact absurd hk hkind
        | _ =>
          rw [hk] at hshape
          exact Option.ne_none_iff_exists'.mp hshape.1
      have hplace := ((hs.source h _ b hjob hb (by simp [Order.job, hd])).resolve_left id).1 n hsrc
      have hcell : (s.cell n).state = .occupied b := (hs.stored b n).mp hplace
      refine unableEnd_sound (suspect_sound hs (by simp [hcell])) ((congrArg Slot.order (enterSuspect_slot ..)).trans hslot)
        FinalState.noConfusion _ (fun m hm => ?_) (fun _ => False.elim)
      have hm' := hm.resolve_left id
      cases hcell.symm.trans hm'
      exact hb
  all_goals exact hs

theorem unableOccupied_sound {s : State} {c : Crane} {h : Handle} {o : Order} (cell : Option Nat) (hs : s.ledger.Sound)
    (ha : s.activeOrder c h = some o) : (s.unableOccupied h.slot o cell).1.ledger.Sound := by
  obtain ⟨hslot, hhandle, hjob, -⟩ := activeOrder_facts hs ha
  unfold State.unableOccupied
  split
  · exact hs
  · next n hn =>
    split
    · exact hs
    · next hno =>
      have hk : o.kind = .stow ∨ o.kind = .move := (stows_iff _).mp (by
        by_contra hne
        simp [Bool.eq_false_iff.mpr hne] at hno)
      have hres : s.ledger.cell n = .reserved h := (hs.reserves n h _ hjob hk ((destCell_iff ..).mp hn)).resolve_right id
      have hsus := Ledger.SoundBut.spoil hs (n := n) (x := .suspect) (fun _ => CellState.noConfusion) (fun _ => CellState.noConfusion)
      rw [← enterSuspect_ledger] at hsus
      dsimp only
      rw [startTimer_ledger]
      refine .of_but (hsus.redestine ((congrArg Slot.order (enterSuspect_slot ..)).trans hslot) hk) (fun b hb => ?_) (fun k hb => ?_)
      · rcases hb with hb | hb
        · exact hb
        · cases hres.symm.trans hb
      · obtain ⟨hb | hb, hne⟩ := hb
        · exact hb
        · cases hres.symm.trans hb
          rw [handleAt_of_slot (enterSuspect_slot ..), hhandle] at hne
          exact hne rfl

theorem endOrder_slot_other {s : State} {i j : Nat} (h : j ≠ i) (f : FinalState) (x : Option EndOutcome) :
    (s.endOrder i f x).slot j = s.slot j := by
  cases ho : (s.slot i).order with
  | none => rw [endOrder_none ho]
  | some o => rw [endOrder_slot ho, if_neg h]

theorem failMisplaced_slot (s : State) (i b : Nat) : (s.failMisplaced (some i) b).slot i = s.slot i := by
  unfold State.failMisplaced
  split
  · rfl
  · split
    · rfl
    · next hne =>
      split
      · rfl
      · split
        · rfl
        · exact endOrder_slot_other (fun e => hne (congrArg some e.symm)) _ _

theorem redestine_slot_other {s : State} {i j : Nat} (h : j ≠ i) : (s.redestine i).slot j = s.slot j := by
  unfold State.redestine
  split
  · rfl
  · dsimp only
    split
    · rw [setOrder_slot, if_neg h, State.reserveCell, State.cellTo, State.setCell_slot, releaseDest_slot]
    · rw [setOrder_slot, if_neg h, releaseDest_slot]

/-- The cell that UNABLE(BLOCKED) names: what it recorded or was reserved for is mended, but for the reporting order's own (R85). -/
theorem blockNamed_sound {s : State} {i : Nat} (n : Nat) (hs : s.ledger.Sound) :
    (s.blockNamed i n).ledger.SoundBut (fun b => ∃ o, (s.slot i).order = some o ∧ o.bin = some b) (fun k => k = s.handleAt i) ∧
      (s.blockNamed i n).slot i = s.slot i := by
  have hblock := Ledger.SoundBut.spoil hs (n := n) (x := .blocked) (fun _ => CellState.noConfusion) (fun _ => CellState.noConfusion)
  rw [← enterBlocked_ledger] at hblock
  have hslot := enterBlocked_slot s n i
  cases hc : (s.cell n).state with
  | occupied b =>
    have heq : s.blockNamed i n = (s.enterBlocked n).failMisplaced (some i) b := by
      simp [State.blockNamed, State.otherReserver, hc, CellState.bin, CellState.destOf]
    have hcell : s.ledger.cell n = .occupied b := hc
    rw [heq]
    refine ⟨(failMisplaced_sound hblock (some i) b).mono (fun m hm => ?_) (fun k hk => ?_), (failMisplaced_slot ..).trans hslot⟩
    · obtain ⟨hlost, hm | ⟨_, o, e, ho, hbin⟩⟩ := hm
      · cases hcell.symm.trans (hlost.resolve_left id)
        exact absurd rfl hm
      · cases e
        cases hcell.symm.trans (hlost.resolve_left id)
        exact ⟨o, hslot ▸ ho, hbin⟩
    · cases hcell.symm.trans (hk.resolve_left id)
  | reserved k =>
    have hcell : s.ledger.cell n = .reserved k := hc
    obtain ⟨j, hj, hkind, -⟩ := hs.reserved n k hcell
    obtain ⟨o, ho, rfl⟩ := (ledger_job_iff ..).mp hj
    have hlost : ∀ m, False ∨ s.ledger.cell n = .occupied m → False := fun m hm => by
      cases hcell.symm.trans (hm.resolve_left id)
    have hbroken : ∀ k', False ∨ s.ledger.cell n = .reserved k' → k' = k := fun k' hk => by
      cases hcell.symm.trans (hk.resolve_left id)
      rfl
    by_cases hi : k.slot = i
    · have heq : s.blockNamed i n = s.enterBlocked n := by
        simp [State.blockNamed, State.otherReserver, hc, CellState.bin, CellState.destOf, hi]
      rw [heq]
      refine ⟨hblock.mono (fun m hm => (hlost m hm).elim) (fun k' hk => ?_), hslot⟩
      rw [hbroken k' hk, ← hi]
      exact (handle_of_orderOf ho).symm
    · have heq : s.blockNamed i n = (s.enterBlocked n).redestine k.slot := by
        simp [State.blockNamed, State.otherReserver, hc, CellState.bin, CellState.destOf, hi, ho]
      have hslotk := enterBlocked_slot s n k.slot
      rw [heq]
      refine ⟨(hblock.redestine ((congrArg Slot.order hslotk).trans (orderOf_slot ho)) hkind).mono (fun m hm => (hlost m hm).elim)
        (fun k' hk => ?_), (redestine_slot_other (Ne.symm hi)).trans hslot⟩
      rw [handleAt_of_slot hslotk, handle_of_orderOf ho] at hk
      exact absurd (hbroken k' hk.1) hk.2
  | _ =>
    have heq : s.blockNamed i n = s.enterBlocked n := by
      simp [State.blockNamed, State.otherReserver, hc, CellState.bin, CellState.destOf]
    have hne : (∀ m, s.ledger.cell n ≠ .occupied m) ∧ ∀ k, s.ledger.cell n ≠ .reserved k := by simp [State.ledger, hc]
    rw [heq]
    exact ⟨hblock.mono (fun m hm => absurd (hm.resolve_left id) (hne.1 m)) (fun k hk => absurd (hk.resolve_left id) (hne.2 k)), hslot⟩

theorem unableBlocked_sound {s : State} {c : Crane} {h : Handle} {o : Order} (cell : Option Nat) (hs : s.ledger.Sound)
    (ha : s.activeOrder c h = some o) : (s.unableBlocked h.slot o cell).1.ledger.Sound := by
  obtain ⟨hslot, -⟩ := activeOrder_facts hs ha
  unfold State.unableBlocked
  split
  · exact unableEnd_plain hs hslot FinalState.noConfusion _
  · next n =>
    split
    · obtain ⟨hblock, hsame⟩ := blockNamed_sound (i := h.slot) n hs
      refine unableEnd_sound hblock ((congrArg Slot.order hsame).trans hslot) FinalState.noConfusion _ (fun b hb => ?_) (fun k hk => ?_)
      · obtain ⟨q, hq, hbin⟩ := hb
        cases hslot.symm.trans hq
        exact hbin
      · rw [handleAt_of_slot hsame]
        exact hk
    · exact hs

theorem unable_sound {s : State} (c : Crane) (h : Handle) (r : UnableReason) (cell : Option Nat) (hs : s.ledger.Sound) :
    (s.unable c h r cell).1.ledger.Sound := by
  refine withActive_sound hs fun o ho => ?_
  obtain ⟨hslot, -⟩ := activeOrder_facts hs ho
  have hend : ∀ f x, f ≠ .complete → (s.unableEnd h.slot o f x).1.ledger.Sound := fun f x hf => unableEnd_plain hs hslot hf x
  split
  · next hd =>
    unfold State.unableDispatched
    split
    · exact unableEmpty_sound cell hs ho hd
    · exact hs
    · exact unableBlocked_sound cell hs ho
    · exact hend _ _ FinalState.noConfusion
    · exact hend _ _ FinalState.noConfusion
  · unfold State.unableLoaded
    split
    · exact hs
    · exact hs
    · exact hend _ _ FinalState.noConfusion
    · exact unableOccupied_sound cell hs ho
    · exact unableBlocked_sound cell hs ho
    · exact hend _ _ FinalState.noConfusion
    · exact hend _ _ FinalState.noConfusion
  · exact hs

theorem ownUnable_sound {s : State} (p : Port) (a : ReportArgs) (hs : s.ledger.Sound) : (ownUnable p a s).1.ledger.Sound := by
  unfold ownUnable
  split
  · exact hs
  · split
    · exact onCrane_sound hs fun c => unable_sound c _ _ _ hs
    · exact hs

/-- The expiry of a progress timer leaves the order's job (R58). -/
theorem stall_ledger {s : State} {i : Nat} {o : Order} (h : (s.slot i).order = some o) : (s.stall i o).ledger = s.ledger := by
  rw [State.stall, raise_ledger]
  exact setOrder_ledger_quiet h rfl

end Sys2Proof.Machine

end

/-! # Fire, reads, rail and settings: the requests and events that leave the ledger or end its orders (O14) -/

section

namespace Sys2Proof.Machine

/-! ## The fate of orders in a fire (R181, R182) -/

theorem fateOne_sound {s : State} (z i : Nat) (hs : s.ledger.Sound) : (s.fateOne z i).ledger.Sound := by
  have hcancel : ∀ x, (s.endOrder i .cancelled x).ledger.Sound := endOrder_sound hs fun _ _ _ => FinalState.noConfusion
  unfold State.fateOne
  split
  · exact hs
  · next o ho =>
    have hredest : o.kind = .stow ∨ o.kind = .move → (if o.destCell.any (inZone z) = true then s.redestine i else s).ledger.Sound := by
      intro hk
      split
      · exact redestine_sound hs ho hk
      · exact hs
    split
    · split
      · exact hcancel _
      · exact hs
    · split
      · exact hcancel _
      · exact hs
    · next hk _ => exact hredest (.inl hk)
    · next hk _ => exact hredest (.inl hk)
    · next hk _ => exact hredest (.inr hk)
    · next hk _ => exact hredest (.inr hk)
    · exact hs

theorem orderFate_sound {s : State} (z : Nat) (hs : s.ledger.Sound) : (s.orderFate z).ledger.Sound := by
  unfold State.orderFate
  generalize slotNumbers = l
  induction l generalizing s with
  | nil => exact hs
  | cons i rest ih => exact ih (fateOne_sound z i hs)

theorem alarm_sound {s : State} (z : Nat) (hs : s.ledger.Sound) : (s.alarm z).ledger.Sound := by
  have hdemand : ∀ (l : List Nat) (t : State), (l.foldl (fun t k => t.takeDemand k) t).ledger = t.ledger :=
    foldl_ledger takeDemand_ledger
  unfold State.alarm
  dsimp only
  rw [raiseAll_ledger, raiseEvac_ledger, raiseEvac_ledger]
  refine orderFate_sound z ?_
  rwa [setZone_ledger, hdemand, sealZone_ledger, setZone_ledger]

theorem takeClass_sound {s : State} (z : Nat) (x : LoopClass) (hs : s.ledger.Sound) : (s.takeClass z x).ledger.Sound := by
  unfold State.takeClass
  split
  · exact alarm_sound z hs
  · exact alarm_sound z hs
  · exact alarm_sound z hs
  · rwa [zoneTo_ledger]
  · rwa [zoneTo_ledger]
  · rwa [zoneTo_ledger]
  · exact hs

theorem sampleLoop_sound {s : State} (z value : Nat) (manual : Bool) (hs : s.ledger.Sound) :
    (s.sampleLoop z value manual).ledger.Sound := by
  have hloop : ∀ r, ((s.setManual manual).setLoop z r).ledger.Sound := fun r => by rwa [setLoop_ledger, setManual_ledger]
  unfold State.sampleLoop
  dsimp only
  split
  · exact hloop _
  · exact takeClass_sound z _ (hloop _)

/-! ## Reads (R36, R37, R63, R111, R123, R186, R200) -/

theorem ownStat_ledger (p : Port) (s : State) : (ownStat p () s).1.ledger = s.ledger := by
  unfold ownStat
  dsimp only
  split <;> simp

theorem ownRdbin_ledger (n : Nat) (s : State) : (ownRdbin n s).1.ledger = s.ledger := by
  unfold ownRdbin
  split <;> rfl

theorem ownRdcell_ledger (n : Nat) (s : State) : (ownRdcell n s).1.ledger = s.ledger := by
  unfold ownRdcell
  split <;> rfl

theorem ownRdord_ledger (a : Nat × Nat) (s : State) : (ownRdord a s).1.ledger = s.ledger := by
  unfold ownRdord
  split
  · dsimp only
    split
    · rfl
    · split <;> rfl
  · rfl

theorem ownRdcrn_ledger (n : Nat) (s : State) : (ownRdcrn n s).1.ledger = s.ledger := by
  unfold ownRdcrn
  split <;> rfl

theorem ownRdseg_ledger (n : Nat) (s : State) : (ownRdseg n s).1.ledger = s.ledger := by
  unfold ownRdseg
  split <;> rfl

theorem ownRdzone_ledger (a : ZoneRead) (s : State) : (ownRdzone a s).1.ledger = s.ledger := by
  unfold ownRdzone
  split <;> rfl

/-! ## Rail (R115 to R122) -/

theorem onCrane_ledger {p : Port} {s : State} {f : Crane → State × Reply} (hf : ∀ c, (f c).1.ledger = s.ledger) :
    (onCrane p s f).1.ledger = s.ledger := by
  unfold onCrane
  split
  · exact hf _
  · rfl

theorem rsv_ledger (s : State) (c : Crane) (lo hi : Nat) : (s.rsv c lo hi).1.ledger = s.ledger := by
  unfold State.rsv
  repeat' split
  all_goals simp [refuse, refuseDetail]

theorem rel_ledger (s : State) (c : Crane) (lo hi : Nat) : (s.rel c lo hi).1.ledger = s.ledger := by
  unfold State.rel
  repeat' split
  all_goals simp [refuse, refuseDetail]

theorem frel_ledger (s : State) (c : Crane) (lo hi : Nat) : (s.frel c lo hi).1.ledger = s.ledger := by
  unfold State.frel
  repeat' split
  all_goals simp [refuse, refuseDetail]

theorem ownRsv_ledger (p : Port) (a : Nat × Nat) (s : State) : (ownRsv p a s).1.ledger = s.ledger := by
  unfold ownRsv
  split
  · exact onCrane_ledger fun c => rsv_ledger s c _ _
  · rfl

theorem ownRel_ledger (p : Port) (a : Nat × Nat) (s : State) : (ownRel p a s).1.ledger = s.ledger := by
  unfold ownRel
  split
  · exact onCrane_ledger fun c => rel_ledger s c _ _
  · rfl

theorem ownFrel_ledger (a : Nat × Nat × Nat) (s : State) : (ownFrel a s).1.ledger = s.ledger := by
  unfold ownFrel
  split
  · rfl
  · split
    · exact frel_ledger s _ _ _
    · rfl

/-! ## Supervision (R105 to R110) -/

theorem clrt_ledger (s : State) (c : Crane) : (s.clrt c).1.ledger = s.ledger := by
  unfold State.clrt
  split
  · rfl
  · split
    · rfl
    · exact clearTrip_ledger s c

theorem ownClrt_ledger (p : Port) (s : State) : (ownClrt p () s).1.ledger = s.ledger := onCrane_ledger fun c => clrt_ledger s c

theorem ownKeep_ledger (p : Port) (n : Nat) (s : State) : (ownKeep p n s).1.ledger = s.ledger := by
  unfold ownKeep
  split
  · rfl
  · exact onCrane_ledger fun c => setKeepalive_ledger s c _ _

theorem ownStop_ledger (n : Nat) (s : State) : (ownStop n s).1.ledger = s.ledger := by
  unfold ownStop
  split
  · rfl
  · exact latchTrip_ledger s _ _

theorem ownCreep_ledger (v : Bool) (n : Nat) (s : State) : (ownCreep v n s).1.ledger = s.ledger := by
  unfold ownCreep
  split
  · rfl
  · exact setCreep_ledger s _ _

/-! ## The wing, fire resets, shutters, parameters, RSTRT -/

theorem ownWhold_ledger (a : List Nat) (s : State) : (ownWhold a s).1.ledger = s.ledger := by
  unfold ownWhold
  split
  · rfl
  · split <;> rfl

theorem ownFrst_ledger (z : Nat) (s : State) : (ownFrst z s).1.ledger = s.ledger := by
  unfold ownFrst
  split
  · rfl
  · split
    · rfl
    · split
      · rfl
      · exact takeReset_ledger s z

theorem ownSopen_ledger (k : Nat) (s : State) : (ownSopen k s).1.ledger = s.ledger := by
  unfold ownSopen
  split
  · exact sopen_ledger s k
  · rfl

theorem ownSet_ledger (a : Nat × Nat) (s : State) : (ownSet a s).1.ledger = s.ledger := by
  unfold ownSet
  split
  · rfl
  · unfold State.setParam
    split
    · rfl
    · split
      · rfl
      · split
        · rfl
        · exact takeParam_ledger s _ _

theorem ownRstrt_ledger (s : State) : (ownRstrt () s).1.ledger = s.ledger := setPort_ledger ..

/-! ## PICK, UNPICK, PLACE, UNCLAIM -/

theorem ownPick_sound {s : State} (a : Nat × Nat) (hs : s.ledger.Sound) : (ownPick a s).1.ledger.Sound :=
  deskRequest_sound _ _ a hs Comp.noConfusion Comp.noConfusion (fun _ _ => rfl)

theorem ownUnpick_sound {s : State} (a : Nat × Nat) (hs : s.ledger.Sound) : (ownUnpick a s).1.ledger.Sound :=
  deskRequest_sound _ _ a hs Comp.noConfusion Comp.noConfusion (fun _ _ => rfl)

theorem ownPlace_sound {s : State} (a : Nat × Nat) (hs : s.ledger.Sound) : (ownPlace a s).1.ledger.Sound :=
  deskRequest_sound _ _ a hs Comp.noConfusion Comp.noConfusion keepUnlessFull_ledger

theorem ownUnclaim_sound {s : State} (a : Nat × Nat) (hs : s.ledger.Sound) : (ownUnclaim a s).1.ledger.Sound :=
  deskRequest_sound _ _ a hs Comp.noConfusion Comp.noConfusion (fun _ _ => rfl)

end Sys2Proof.Machine

end

/-! # Starts, time, and every step keeps the ledger (O14) -/

section

namespace Sys2Proof.Machine

/-! ## Starts (R206) -/

theorem atWarm_fields (b : Bin) :
    b.atWarm.place = b.place ∧ b.atWarm.order = none ∧
      b.atWarm.comps = if b.place.isAtBay = true then b.comps else b.comps.map (fun c => if c = .pendingPick then .occupied else c) := by
  unfold Bin.atWarm
  dsimp only
  split <;> exact ⟨rfl, rfl, rfl⟩

theorem startBlocks_orderOf (s : State) (l : StartLevels) (h : Handle) : (s.startBlocks l).orderOf h = none := ite_self none

theorem warmStart_bay {s : State} (h : TablesWf s) (l : StartLevels) (st : Station) (k : Nat) :
    (s.warmStart l).bay st k = (s.bay st k).atWarm := tableGet_map _ _ rfl _ h.bays _

/-- A warm start in the ledger. -/
theorem warmStart_ledger {s : State} (h : TablesWf s) (l : StartLevels) : (s.warmStart l).ledger = s.ledger.restart := by
  ext1
  case place =>
    funext b
    exact (congrArg Bin.place (warmStart_bin h l b)).trans (atWarm_fields _).1
  case comps =>
    funext b
    exact (congrArg Bin.comps (warmStart_bin h l b)).trans (atWarm_fields _).2.2
  case handle =>
    funext b
    exact (congrArg Bin.order (warmStart_bin h l b)).trans (atWarm_fields _).2.1
  case cell =>
    funext n
    refine (congrArg Cell.state (warmStart_cell h l n)).trans ?_
    simp only [Cell.atWarm, Ledger.restart, State.ledger]
    cases hc : (s.cell n).state <;> simp only [hc]
  case bay =>
    funext st k
    refine (congrArg (fun y => y.state.bin) (warmStart_bay h l st k)).trans ?_
    change _ = (s.bay st k).state.bin
    unfold Bay.atWarm
    cases hb : (s.bay st k).state with
    | inbound =>
      simp only [BayState.bin]
      rfl
    | _ => simp only [hb, BayState.bin]
  case job =>
    funext k
    exact congrArg (Option.map Order.job) (startBlocks_orderOf _ l k)
  case carried | active | orphan =>
    funext c
    cases c <;> rfl

theorem warmStart_sound {s : State} (h : TablesWf s) (l : StartLevels) (hs : s.ledger.Sound) : (s.warmStart l).ledger.Sound := by
  rw [warmStart_ledger h]
  exact hs.restart

/-- A cold start leaves the ledger of the reset state. -/
theorem coldStartAt_ledger (s : State) (l : StartLevels) : (s.coldStartAt l).ledger = State.reset.ledger := by
  ext1
  case job =>
    funext k
    exact congrArg (Option.map Order.job) ((startBlocks_orderOf _ l k).trans (reset_orderOf k).symm)
  case carried | active | orphan =>
    funext c
    cases c <;> rfl
  all_goals rfl

theorem coldStartAt_sound (s : State) (l : StartLevels) : (s.coldStartAt l).ledger.Sound := by
  rw [coldStartAt_ledger]
  exact (ledgerSound_iff _).mp ⟨reset_directorySound, reset_ordersSound, reset_cranesSound⟩

/-! ## Time (log 3) -/

theorem elapse_ledger {s : State} (h : TablesWf s) : s.elapse.ledger = s.ledger := by
  ext1
  case job =>
    funext k
    have hslot : s.elapse.slot k.slot = (s.slot k.slot).tick := tableGet_map _ _ rfl _ h.slots k.slot
    have horder : s.elapse.orderOf k = (s.orderOf k).map Order.tick := by
      simp only [State.orderOf, hslot, Slot.tick]
      split <;> rfl
    refine (congrArg (Option.map Order.job) horder).trans ?_
    rw [Option.map_map]
    rfl
  case carried | active | orphan =>
    funext c
    cases c <;> rfl
  all_goals rfl

theorem tick_sound {s : State} (h : TablesWf s) (hs : s.ledger.Sound) : s.tick.ledger.Sound := by
  unfold State.tick
  split
  · rwa [elapse_ledger h]
  · exact hs

/-! ## Requests and events -/

theorem answer_sound {α : Type} {p : Port} {k : Kind} {args : Except Reason α} {owner : α → State → State × Reply} {s : State}
    (ho : ∀ a u, u.ledger.Sound → (owner a u).1.ledger.Sound) (hs : s.ledger.Sound) : (answer p k args owner s).1.ledger.Sound := by
  unfold answer
  split
  · exact hs
  · split
    · exact hs
    · exact ho _ s hs

/-- A request keeps the ledger where its owner does. -/
theorem serve_sound {α : Type} {p : Port} {k : Kind} {read : List Byte → Except Reason α} {args : α}
    {owner : α → State → State × Reply} {always : Bool} {s t : State} (ho : ∀ a u, u.ledger.Sound → (owner a u).1.ledger.Sound)
    (hs : s.ledger.Sound) (e : serve p k read args owner always s = .next t) : t.ledger.Sound := by
  cases e
  unfold served
  split
  · split
    · rw [conclude_ledger]
      exact answer_sound ho hs
    · split
      · rw [conclude_ledger]
        exact answer_sound ho (by rwa [setPort_ledger])
      · exact hs
    · exact hs
  · exact hs

/-- A request whose owner leaves the ledger. -/
theorem serve_quiet {α : Type} {p : Port} {k : Kind} {read : List Byte → Except Reason α} {args : α}
    {owner : α → State → State × Reply} {always : Bool} {s t : State} (ho : ∀ a u, (owner a u).1.ledger = u.ledger)
    (hs : s.ledger.Sound) (e : serve p k read args owner always s = .next t) : t.ledger.Sound :=
  serve_sound (fun a u hu => by rwa [ho a u]) hs e

theorem whenRunning_sound {s t : State} {f : State → State} (hs : s.ledger.Sound) (hf : (f s).ledger.Sound)
    (e : whenRunning s f = .next t) : t.ledger.Sound := by
  cases e
  unfold eventState
  split
  · exact hf
  · exact hs

theorem finish_sound (s : State) {t : State} (ht : t.ledger.Sound) : (finish s t).ledger.Sound := by rwa [finish_ledger]

/-- An event that leaves the ledger. -/
theorem whenRunning_quiet {s t : State} {f : State → State} (hs : s.ledger.Sound) (hf : (f s).ledger = s.ledger)
    (e : whenRunning s f = .next t) : t.ledger.Sound := whenRunning_sound hs (hf ▸ hs) e

/-! ## The link's events -/

theorem execAssemblerRefusal_sound {p : Port} {s t : State} (hs : s.ledger.Sound) (e : execAssemblerRefusal p s = .next t) :
    t.ledger.Sound := by
  refine whenRunning_quiet hs ?_ e
  split
  · split
    · exact nakItem_ledger s p _ _
    all_goals rfl
  · rfl

theorem execUnknownKind_sound {p : Port} {s t : State} (hs : s.ledger.Sound) (e : execUnknownKind p s = .next t) :
    t.ledger.Sound := by
  refine whenRunning_quiet hs ?_ e
  split
  · split
    · split
      · exact nakItem_ledger s p _ _
      · rfl
    all_goals rfl
  · rfl

theorem execMessageComplete_sound {p : Port} {s t : State} (hs : s.ledger.Sound) (e : execMessageComplete p s = .next t) :
    t.ledger.Sound := by
  refine whenRunning_quiet hs ?_ e
  split
  · split
    · exact (goodMessage_ledger _ p).trans (setPort_ledger ..)
    · rfl
  · rfl

theorem execOverlengthMessage_sound {p : Port} {s t : State} (hs : s.ledger.Sound) (e : execOverlengthMessage p s = .next t) :
    t.ledger.Sound := by
  refine whenRunning_quiet hs ?_ e
  split
  · split
    · exact setPort_ledger ..
    · rfl
  · rfl

theorem execLineBreak_sound {p : Port} {s t : State} (hs : s.ledger.Sound) (e : execLineBreak p s = .next t) : t.ledger.Sound := by
  refine whenRunning_quiet hs ?_ e
  split
  · rfl
  · exact (finish_ledger ..).trans (takeBreak_ledger s p)

theorem execCharacterReceived_sound {p : Port} {f : RxFrame} {s t : State} (hs : s.ledger.Sound)
    (e : execCharacterReceived p f s = .next t) : t.ledger.Sound := by
  refine whenRunning_quiet hs ?_ e
  split
  · rfl
  · exact (finish_ledger ..).trans (receive_ledger s p f)

theorem execTransmitComplete_sound {e' : MessageEnd} {s t : State} (h : TablesWf s) (hs : s.ledger.Sound)
    (e : execTransmitComplete e' s = .next t) : t.ledger.Sound := by
  refine whenRunning_sound hs ?_ e
  split
  · exact hs
  · unfold State.sent
    split
    · exact warmStart_sound h _ hs
    · rwa [pump_ledger, setPort_ledger]

/-! ## The other events -/

theorem execKeepaliveExpiry_sound {c : Crane} {s t : State} (hs : s.ledger.Sound) (e : execKeepaliveExpiry c s = .next t) :
    t.ledger.Sound := by
  refine whenRunning_quiet hs ?_ e
  split
  · rw [finish_ledger, latchTrip_ledger, setKeepalive_ledger]
  · rfl

theorem execProgressTimerExpiry_sound {i : Fin 64} {s t : State} (hs : s.ledger.Sound) (e : execProgressTimerExpiry i s = .next t) :
    t.ledger.Sound := by
  refine whenRunning_quiet hs ?_ e
  split
  · rfl
  · next o ho =>
    split
    · exact (finish_ledger ..).trans (stall_ledger ho)
    · rfl

theorem execVerificationIntervalExpiry_sound {s t : State} (hs : s.ledger.Sound) (e : execVerificationIntervalExpiry s = .next t) :
    t.ledger.Sound := by
  refine whenRunning_sound hs ?_ e
  rw [pump_ledger, evalCranes_ledger]
  exact intervalCrane_sound .B (intervalCrane_sound .A hs)

theorem execClearanceTimerExpiry_sound {z : Fin 4} {s t : State} (hs : s.ledger.Sound) (e : execClearanceTimerExpiry z s = .next t) :
    t.ledger.Sound := by
  refine whenRunning_quiet hs ?_ e
  split
  · rw [finish_ledger, endClearance_ledger, cutCrane_ledger, cutCrane_ledger]
  · rfl

theorem execTravelTimerExpiry_sound {k : Fin 3} {s t : State} (hs : s.ledger.Sound) (e : execTravelTimerExpiry k s = .next t) :
    t.ledger.Sound := by
  refine whenRunning_quiet hs ?_ e
  split
  · rw [finish_ledger, moveShutter_ledger]
  · rfl

theorem execLimitEdge_sound {k : Fin 3} {i : LimitSwitch} {level : Bool} {s t : State} (hs : s.ledger.Sound)
    (e : execLimitEdge k i level s = .next t) : t.ledger.Sound := by
  refine whenRunning_quiet hs ?_ e
  split
  · rfl
  · rw [finish_ledger, limitEdge_ledger]

theorem execFireResetInput_sound {s t : State} (hs : s.ledger.Sound) (e : execFireResetInput s = .next t) : t.ledger.Sound := by
  have hzones : (zoneNumbers.foldl (fun t z => t.offerReset z) s).ledger = s.ledger := foldl_ledger offerReset_ledger zoneNumbers s
  refine whenRunning_quiet hs ?_ e
  rw [finish_ledger, hzones]

theorem execGeneratorTick_sound {s t : State} (hs : s.ledger.Sound) (e : execGeneratorTick s = .next t) : t.ledger.Sound := by
  have htick : ∀ (u : State) (k : Nat), (u.tickGen k).ledger = u.ledger := fun u k => setGen_ledger u k _
  have hgens : ([0, 1, 2, 3].foldl (fun t k => t.tickGen k) s).ledger = s.ledger := foldl_ledger htick [0, 1, 2, 3] s
  refine whenRunning_quiet hs ?_ e
  exact hgens

theorem execResetReleased_sound {valid : Bool} {l : StartLevels} {s t : State} (h : TablesWf s) (hs : s.ledger.Sound)
    (e : execResetReleased valid l s = .next t) : t.ledger.Sound := by
  cases e
  split
  · exact warmStart_sound h l hs
  · split
    · exact warmStart_sound h l hs
    · exact coldStartAt_sound s l
  all_goals exact hs

theorem execCancel_sound {p : Port} {slot gen : Nat} {s t : State} (hs : s.ledger.Sound) (e : execCancel p slot gen s = .next t) :
    t.ledger.Sound := by
  unfold execCancel at e
  split at e
  · exact serve_sound (fun a _ hu => ownServiceCancel_sound a hu) hs e
  · exact serve_sound (fun a _ hu => ownCancel_sound a hu) hs e

/-! ## Every command and every step -/

theorem exec_sound {c : Instr} {s t : State} (h : TablesWf s) (hs : s.ledger.Sound) (e : exec c s = .next t) : t.ledger.Sound := by
  cases c
  case stat p => exact serve_quiet (fun _ => ownStat_ledger p) hs e
  case rdbin => exact serve_quiet ownRdbin_ledger hs e
  case rdcell => exact serve_quiet ownRdcell_ledger hs e
  case rdord => exact serve_quiet ownRdord_ledger hs e
  case rdcrn => exact serve_quiet ownRdcrn_ledger hs e
  case rdseg => exact serve_quiet ownRdseg_ledger hs e
  case rdzone => exact serve_quiet ownRdzone_ledger hs e
  case fetch => exact serve_sound (fun a _ hu => ownFetch_sound a hu) hs e
  case pick => exact serve_sound (fun a _ hu => ownPick_sound a hu) hs e
  case unpick => exact serve_sound (fun a _ hu => ownUnpick_sound a hu) hs e
  case slot => exact serve_sound (fun a _ hu => ownSlot_sound a hu) hs e
  case place => exact serve_sound (fun a _ hu => ownPlace_sound a hu) hs e
  case unclaim => exact serve_sound (fun a _ hu => ownUnclaim_sound a hu) hs e
  case relbay => exact serve_sound (fun a _ hu => ownRelbay_sound a hu) hs e
  case cancel => exact execCancel_sound hs e
  case cancelOnPortS => exact serve_sound (fun a _ hu => ownServiceCancel_sound a hu) hs e
  case nextWork p n => exact serve_sound (fun a _ hu => ownNext_sound p a hu) hs e
  case load p _ _ => exact serve_sound (fun a _ hu => ownLoad_sound p a hu) hs e
  case done p _ _ _ => exact serve_sound (fun a _ hu => ownDone_sound p a hu) hs e
  case unable p _ _ _ _ => exact serve_sound (fun a _ hu => ownUnable_sound p a hu) hs e
  case tag p _ _ _ => exact serve_sound (fun a _ hu => ownTag_sound p a hu) hs e
  case rsv p _ _ => exact serve_quiet (ownRsv_ledger p) hs e
  case rel p _ _ => exact serve_quiet (ownRel_ledger p) hs e
  case clrt p => exact serve_quiet (fun _ => ownClrt_ledger p) hs e
  case keep p _ => exact serve_quiet (ownKeep_ledger p) hs e
  case assign => exact serve_sound (fun a _ hu => ownAssign_sound a hu) hs e
  case clrsus =>
    exact serve_sound (fun n _ hu => ownToUnverified_sound (fun _ => CellState.noConfusion) (fun _ => CellState.noConfusion) n hu) hs e
  case block => exact serve_sound (fun n _ hu => ownBlock_sound n hu) hs e
  case unblk =>
    exact serve_sound (fun n _ hu => ownToUnverified_sound (fun _ => CellState.noConfusion) (fun _ => CellState.noConfusion) n hu) hs e
  case quar => exact serve_sound (fun b _ hu => ownQuar_sound true b hu) hs e
  case unquar => exact serve_sound (fun b _ hu => ownQuar_sound false b hu) hs e
  case setcmp => exact serve_sound (fun a _ hu => ownSetcmp_sound a hu) hs e
  case move => exact serve_sound (fun a _ hu => ownMove_sound a hu) hs e
  case frel => exact serve_quiet ownFrel_ledger hs e
  case stop => exact serve_quiet ownStop_ledger hs e
  case creep => exact serve_quiet (ownCreep_ledger true) hs e
  case crend => exact serve_quiet (ownCreep_ledger false) hs e
  case whold => exact serve_quiet ownWhold_ledger hs e
  case wres => exact serve_quiet (fun _ _ => rfl) hs e
  case frst => exact serve_quiet ownFrst_ledger hs e
  case sopen => exact serve_quiet ownSopen_ledger hs e
  case setParam => exact serve_quiet ownSet_ledger hs e
  case rstrt => exact serve_quiet (fun _ => ownRstrt_ledger) hs e
  case assemblerRefusal => exact execAssemblerRefusal_sound hs e
  case unknownKind => exact execUnknownKind_sound hs e
  case messageComplete => exact execMessageComplete_sound hs e
  case overlengthMessage => exact execOverlengthMessage_sound hs e
  case lineBreak => exact execLineBreak_sound hs e
  case transmitComplete => exact execTransmitComplete_sound h hs e
  case positionSample c =>
    refine whenRunning_quiet hs ?_ e
    rw [finish_ledger, positionSample_ledger]
  case inputExcursion c _ _ =>
    refine whenRunning_quiet hs ?_ e
    exact setFilters_ledger s c _
  case filterWindow c w =>
    refine whenRunning_quiet hs ?_ e
    rw [finish_ledger, filterWindow_ledger]
  case keepaliveExpiry => exact execKeepaliveExpiry_sound hs e
  case progressTimerExpiry => exact execProgressTimerExpiry_sound hs e
  case verificationIntervalExpiry => exact execVerificationIntervalExpiry_sound hs e
  case loopSample z value manual =>
    refine whenRunning_sound hs ?_ e
    exact finish_sound s (sampleLoop_sound z value manual hs)
  case clearanceTimerExpiry => exact execClearanceTimerExpiry_sound hs e
  case travelTimerExpiry => exact execTravelTimerExpiry_sound hs e
  case limitEdge => exact execLimitEdge_sound hs e
  case fireResetInput => exact execFireResetInput_sound hs e
  case generatorTick => exact execGeneratorTick_sound hs e
  case powerOn =>
    cases e
    split <;> exact hs
  case lossOfMainSupply =>
    cases e
    exact hs
  case resetAsserted =>
    cases e
    split <;> exact hs
  case resetReleased => exact execResetReleased_sound h hs e
  case characterReceived => exact execCharacterReceived_sound hs e
  case breakEnd p => exact whenRunning_quiet hs (setPort_ledger s p _) e

/-- Settles O14: `LedgerSound` read as laws of a ledger of functions, each operation of the model as an operation of that ledger, and
an exhaustive split on the command. -/
theorem stepKeepsTheLedger : Obligations.StepKeepsTheLedger := by
  intro s t hwf hs e
  have htables := (tablesWf_iff s).mp hwf
  have hledger := (ledgerSound_iff s).mp hs
  rw [ledgerSound_iff]
  unfold step at e
  split at e
  · cases e
    exact tick_sound htables hledger
  · next c rest _ =>
    have htables' : TablesWf { s with pending := rest } := { htables with }
    exact exec_sound htables' hledger e

end Sys2Proof.Machine

end
